-- ==== Sys2Proof/Word.lean ====
section
/-! DEFINITION. The widths of spec rule R11: a serial byte, a register-map word, a raw analog sample, and the
32-bit counters and times of rules R65 to R69. -/

namespace Sys2Proof

/-- A serial byte, a function code, a slave address, a byte count, an exception code, alarm flags (rules R11, R61). -/
abbrev Byte := BitVec 8

/-- A register-map word, a request field, a CRC (rule R11). -/
abbrev Word := BitVec 16

/-- A raw analog sample, 0 to 4095 (rules R11, R263). -/
abbrev Raw12 := BitVec 12

/-- A counter or a time in milliseconds, modulo 2^32 (rules R65 to R69, R354). -/
abbrev Word32 := BitVec 32

end Sys2Proof
end

