-- ==== Sys2Proof/Config.lean ====
section
/-! DEFINITION. The implementation parameters of spec rule R10 as one plain structure whose field types hold the
rule's constraints, the instance that spec/95_test_vectors.md fixes, and the bodiless constants: the distance
function (rule R265) and the transmit outcomes (rule R178). -/

namespace Sys2Proof

/-- A value of DIST_FN: the exact non-negative number `num / (denPred + 1)` (rules R10, R16).
DESIGN CHOICE, safe: rationals carry every comparison with an integer that the rules make (log entry 4). -/
structure Dist where
  num : Nat
  denPred : Nat
  deriving DecidableEq, Repr, Inhabited

/-- The outcome of one transmission (rule R178). On `fail` the master has received the first `received` bytes
of the response, all of it when `received` is not below its length: any prefix is possible. -/
inductive TxOutcome where
  | ok
  | fail (received : Nat)
  deriving DecidableEq, Repr, Inhabited

/-- The parameters of rule R10. A field named `…Pred` or `…Extra` holds the parameter less its least legal
value, so that every value of this type is a legal instance. -/
structure Params where
  /-- SLAVE_ADDR - 1, so 1 ≤ SLAVE_ADDR ≤ 247. -/
  slaveAddrPred : Fin 247
  /-- HOLDING_REG_COUNT - 0x010A. -/
  holdingRegExtra : Nat
  /-- INPUT_REG_COUNT, at most 65536. -/
  inputRegs : Fin 65537
  /-- INPUT_REG_INIT(a) is entry a, and 0 beyond the list's end. -/
  inputRegInits : List Word
  /-- COIL_COUNT. -/
  coilCount : Nat
  /-- DISC_COUNT. -/
  discCount : Nat
  /-- DEVICE_DEFAULTS[0..9]. -/
  deviceDefaults : Vector Word 10
  /-- FRAME_BUF_SIZE - 9. -/
  frameBufExtra : Nat
  /-- MAX_READ_QTY - 1, so 1 ≤ MAX_READ_QTY ≤ 127. -/
  maxReadQtyPred : Fin 127
  /-- V_REF_MV - 1, so 0 < V_REF_MV ≤ 65536. -/
  vRefMvPred : Fin 65536
  /-- DEBOUNCE_MS[0..3]. -/
  debounceMs : Vector Word32 4
  /-- MONITOR_PERIOD_MS - 1; informative only, no rule reads it (rule R261). -/
  monitorPeriodPred : Nat
  /-- SILENCE_RESET. -/
  silenceReset : Bool
  deriving DecidableEq, Repr

/-- SLAVE_ADDR (rule R10, D2). -/
def Params.slaveAddr (p : Params) : Byte := BitVec.ofNat 8 (p.slaveAddrPred.val + 1)

/-- HOLDING_REG_COUNT (rule R10, D3). -/
def Params.holdingRegCount (p : Params) : Nat := 0x010A + p.holdingRegExtra

/-- INPUT_REG_COUNT (rule R10, D4). -/
def Params.inputRegCount (p : Params) : Nat := p.inputRegs.val

/-- INPUT_REG_INIT(a) (rules R10, R33). -/
def Params.inputRegInit (p : Params) (a : Nat) : Word := p.inputRegInits.getD a 0

/-- FRAME_BUF_SIZE (rule R10, D8). -/
def Params.frameBufSize (p : Params) : Nat := 9 + p.frameBufExtra

/-- MAX_READ_QTY (rule R10, D17). -/
def Params.maxReadQty (p : Params) : Nat := p.maxReadQtyPred.val + 1

/-- V_REF_MV (rule R10, D24). -/
def Params.vRefMv (p : Params) : Nat := p.vRefMvPred.val + 1

/-- MONITOR_PERIOD_MS (rule R10, D43). -/
def Params.monitorPeriodMs (p : Params) : Nat := p.monitorPeriodPred + 1

/-- The instance of spec/95_test_vectors.md: SLAVE_ADDR 1, HOLDING_REG_COUNT 266, INPUT_REG_COUNT 16 with all
input registers 0, FRAME_BUF_SIZE 256, MAX_READ_QTY 125, V_REF_MV 3300, DEBOUNCE_MS 50, SILENCE_RESET false,
DEVICE_DEFAULTS 0. DESIGN CHOICE, unsafe: COIL_COUNT 16, DISC_COUNT 16 and MONITOR_PERIOD_MS 5 are the model's,
and so is taking this instance for `State.reset` (log entry 3). -/
def Config.vectorParams : Params where
  slaveAddrPred := 0
  holdingRegExtra := 0
  inputRegs := 16
  inputRegInits := []
  coilCount := 16
  discCount := 16
  deviceDefaults := Vector.replicate 10 0
  frameBufExtra := 247
  maxReadQtyPred := 124
  vRefMvPred := 3299
  debounceMs := Vector.replicate 4 50
  monitorPeriodPred := 4
  silenceReset := false

/-- DIST_FN of an instance: a total function of the raw sample, the gain and the offset that nothing can
evaluate (rule R265: "A model must take `DIST_FN` as an opaque total function with values ≥ 0"; log entry 10). -/
opaque Config.distFn : Params → Raw12 → Word → Word → Dist

/-- The outcome the environment draws for the n-th transmission (rule R178): a free value (log entry 5). -/
opaque Config.txOutcome : Nat → TxOutcome

end Sys2Proof
end

