-- ==== Sys2Proof/Machine/State.lean ====
section
/-! DEFINITION. The state of SMCORE (spec rules R30 to R72) as plain data, the events of rule R70, why a step can
stop, and the state after reset (rule R380). -/

namespace Sys2Proof.Machine

open Sys2Proof

/-- The two word spaces that the access contract names (rules R18, R92). -/
inductive Space where
  | holding
  | input
  deriving DecidableEq, Repr

/-- Why the machine stops. SMCORE has no fault state (rule R340); this is the failure of the access contract. -/
inductive Fault where
  /-- Raised by `regRead` and `regWrite` at an address not below the space's length (rule R92). Safe: every
  rule checks the whole range before its first access, so no step reaches it (rule R93). -/
  | outOfRange (space : Space) (addr : Nat)
  deriving DecidableEq, Repr

/-- Why a step has no meaning. -/
inductive Refusal where
  /-- Raised by `exec` for an instruction without a meaning; no arm raises it. Safe. -/
  | notModelled (mnemonic : String)
  /-- Raised by the step on an `RxSilence` event while SILENCE_RESET is false: "the event does not exist"
  (rule R166). Safe. -/
  | noSilenceTimer
  deriving DecidableEq, Repr

/-- The input events (rule R70). The samples of a cycle are draws of the environment, carried by the event. -/
inductive Event where
  | rxByte (b : Byte)
  | rxError
  | rxSilence
  | cycle (a : Vector Raw12 4) (d : Vector Bool 4)
  | msTick
  | reset
  deriving DecidableEq, Repr

/-- The five safety statuses (rules R22, R60). -/
inductive Status where
  | ok
  | warning
  | critical
  | emergency
  | error
  deriving DecidableEq, Repr

/-- What the monitor keeps for an analog channel (rule R65). -/
structure AnalogChannel where
  raw : Raw12
  status : Status
  flags : Byte
  dist : Dist
  mv : Word
  minMv : Word
  maxMv : Word
  errors : Word32
  deriving DecidableEq, Repr

/-- What the monitor keeps for a digital channel (rule R66); `active` is the debounced `di_state`. -/
structure DigitalChannel where
  level : Bool
  prevLevel : Bool
  edgeTime : Word32
  active : Bool
  changes : Word32
  commitTime : Word32
  errors : Word32
  flags : Byte
  deriving DecidableEq, Repr

/-- One response on the transmit port and its outcome (rule R178). -/
structure TxRecord where
  sent : List Byte
  outcome : TxOutcome
  deriving DecidableEq, Repr

/-- What a register-map space lists: address and value, for the addresses that do not read as their reset value. -/
abbrev Cells (α : Type) := List (Nat × α)

/-- The state. The fields from `hr` to `uptimeMs` are the spec's; `cfg` is the instance's parameters, which no
step writes; `inputs`, `txLog` and `txCount` are the environment's side of the ports (log entries 1, 2, 5, 6). -/
@[ext]
structure State where
  /-- The parameters of the instance (rule R10). -/
  cfg : Params
  /-- Holding registers (rules R32, R35). -/
  hr : Cells Word
  /-- Input registers (rule R33). -/
  ir : Cells Word
  /-- Coils (rule R34). -/
  coil : Cells Bool
  /-- Discrete inputs (rule R34). -/
  discIn : Cells Bool
  /-- `rx_buf`; `rx_count` is its length (rule R63). -/
  rxBuf : List Byte
  /-- Analog channels (rule R65). -/
  ai : Vector AnalogChannel 4
  /-- Digital channels (rule R66). -/
  di : Vector DigitalChannel 4
  /-- `sys_status` (rule R67). -/
  sysStatus : Status
  /-- `estop` (rule R67). -/
  estop : Bool
  /-- `last_check` (rule R67). -/
  lastCheck : Word32
  /-- `warn_count` (rule R67). -/
  warnCount : Word32
  /-- `crit_count` (rule R67). -/
  critCount : Word32
  /-- `emerg_count` (rule R67). -/
  emergCount : Word32
  /-- `reset_required` (rule R62). -/
  resetRequired : Bool
  /-- `relay_out` (rule R68). -/
  relayOut : Bool
  /-- `ind_out` (rule R68). -/
  indOut : Bool
  /-- `uptime_ms` (rule R69). -/
  uptimeMs : Word32
  /-- The events the environment delivers next, first one first (rules R13, R70, R347). -/
  inputs : List Event
  /-- The responses emitted so far, oldest first (rule R178). -/
  txLog : List TxRecord
  /-- How many transmit outcomes have been drawn. -/
  txCount : Nat
  deriving DecidableEq, Repr

/-- An analog channel after reset (rule R65). -/
def AnalogChannel.reset : AnalogChannel where
  raw := 0
  status := .ok
  flags := 0
  dist := ⟨0, 0⟩
  mv := 0
  minMv := 0xFFFF
  maxMv := 0
  errors := 0

/-- A digital channel after reset (rule R66). -/
def DigitalChannel.reset : DigitalChannel where
  level := false
  prevLevel := false
  edgeTime := 0
  active := false
  changes := 0
  commitTime := 0
  errors := 0
  flags := 0

/-- An instance right after reset (rules R72, R380), with nothing delivered and nothing sent. -/
def State.resetOf (p : Params) : State where
  cfg := p
  hr := []
  ir := []
  coil := []
  discIn := []
  rxBuf := []
  ai := Vector.replicate 4 AnalogChannel.reset
  di := Vector.replicate 4 DigitalChannel.reset
  sysStatus := .ok
  estop := false
  lastCheck := 0
  warnCount := 0
  critCount := 0
  emergCount := 0
  resetRequired := false
  relayOut := false
  indOut := false
  uptimeMs := 0
  inputs := []
  txLog := []
  txCount := 0

/-- The machine right after reset, at the instance of spec/95_test_vectors.md (log entry 3). -/
def State.reset : State := State.resetOf Config.vectorParams

end Sys2Proof.Machine
end

