-- ==== Sys2Proof/Machine/Flags.lean ====
section
/-! DEFINITION. Status codes (spec rule R60), alarm flags (R61) and the zone classification (R267). -/

namespace Sys2Proof.Machine

open Sys2Proof

/-- The 16-bit code of a status (rule R60). -/
def Status.code : Status → Word
  | .ok => 0
  | .warning => 1
  | .critical => 2
  | .emergency => 3
  | .error => 4

/-- AF_ERROR (rule R61). -/
def afError : Byte := 0x01

/-- AF_CRITICAL (rule R61). -/
def afCritical : Byte := 0x02

/-- AF_WARN_HIGH (rule R61). -/
def afWarnHigh : Byte := 0x04

/-- AF_WARN_LOW (rule R61). -/
def afWarnLow : Byte := 0x08

/-- AF_LOW_ALERT (rule R61). -/
def afLowAlert : Byte := 0x10

/-- The distance 0. -/
def Dist.zero : Dist := ⟨0, 0⟩

/-- `d == 0`, on the exact value (rule R16). -/
def Dist.isZero (d : Dist) : Bool := d.num == 0

/-- `d <= z`, on the exact values (rules R16, R267). -/
def Dist.le (d : Dist) (z : Word) : Bool := decide (d.num ≤ z.toNat * (d.denPred + 1))

/-- `classify(d)`: the first test that holds decides, for thresholds in any order (rule R267). -/
def classify (z1 z2 z3 z4 : Word) (d : Dist) : Status × Byte :=
  if Dist.isZero d then (.error, afError)
  else if Dist.le d z1 then (.critical, afCritical)
  else if Dist.le d z2 then (.warning, afWarnHigh)
  else if Dist.le d z3 then (.warning, afWarnLow)
  else if Dist.le d z4 then (.ok, afLowAlert)
  else (.ok, 0)

/-- The status of a digital channel from its debounced state (rule R279). -/
def digitalStatus (active : Bool) : Status := if active then .critical else .ok

/-- The alarm flags of a digital channel from its debounced state (rule R279). -/
def digitalFlags (active : Bool) : Byte := if active then afCritical else 0

/-- The fixed precedence chain CRITICAL, WARNING, ERROR, OK over the statuses of a cycle (rule R285). -/
def precedence (ss : List Status) : Status :=
  if Status.critical ∈ ss then .critical
  else if Status.warning ∈ ss then .warning
  else if Status.error ∈ ss then .error
  else .ok

end Sys2Proof.Machine
end

