-- ==== Sys2Proof/Syntax.lean ====
section
/-! DEFINITION. The instructions of SMCORE: one constructor per row of spec/opcode_table.json, that is per
function-code class of spec rule R133, with the request fields of rule R121. -/

namespace Sys2Proof

/-- One request that has passed the address and CRC checks (rules R121 to R123, R133). The slave address and
the CRC are not operands: a decoded request has the one right value of each. -/
inductive Instr where
  /-- 0x03, read holding registers (rule R200). -/
  | rhr (addr qty : Word)
  /-- 0x04, read input registers (rule R201). -/
  | rir (addr qty : Word)
  /-- 0x06, write single holding register (rule R220). -/
  | wsr (addr value : Word)
  /-- 0x10, write multiple holding registers, with its byte count and its raw data bytes (rules R123, R221). -/
  | wmr (addr qty : Word) (bc : Byte) (data : List Byte)
  /-- Every other function code, with its four uninterpreted bytes 2 to 5 (rules R122, R250). -/
  | illegal (fc b2 b3 b4 b5 : Byte)
  deriving DecidableEq, Repr

end Sys2Proof
end

