-- ==== Sys2Proof/WellFormed.lean ====
section
/-! DEFINITION. Which instruction terms are requests that the wire can carry (spec rules R122, R123, R133, R163). -/

namespace Sys2Proof

/-- The four supported function codes (rules R2, R133). -/
def supportedCode (fc : Byte) : Bool := fc == 0x03 || fc == 0x04 || fc == 0x06 || fc == 0x10

/-- A term that stands for a frame: an illegal code is none of the supported ones (rule R133), and a 0x10
request carries exactly `bc` data bytes (rule R123). -/
def Instr.wf : Instr → Bool
  | .rhr _ _ => true
  | .rir _ _ => true
  | .wsr _ _ => true
  | .wmr _ _ bc data => data.length == bc.toNat
  | .illegal fc _ _ _ _ => !supportedCode fc

/-- The length in bytes of the request's frame: format REQ8 or REQ10 (rules R122, R123). -/
def Instr.frameLen : Instr → Nat
  | .rhr _ _ => 8
  | .rir _ _ => 8
  | .wsr _ _ => 8
  | .wmr _ _ bc _ => 9 + bc.toNat
  | .illegal _ _ _ _ _ => 8

/-- The frame fits the receiver's buffer: a longer one overflows before it is complete (rule R163). -/
def Instr.fits (p : Params) (i : Instr) : Bool := decide (i.frameLen ≤ p.frameBufSize)

end Sys2Proof
end

