-- ==== Sys2Proof/Decode.lean ====
section
/-! DEFINITION. From bytes to instructions and back: field assembly (spec rule R121), the CRC-16 (R126 to R128),
the expected length of a partial frame (R132), the decoder with the checks of R171 to R173, the encoder of the
request syntax of R137, and the frame of a word of spec/opcode_table.json. -/

namespace Sys2Proof

/-- `be16(h, l) = h * 256 + l` (rule R15). -/
def be16 (h l : Byte) : Word := h ++ l

/-- `hi8(v) = v[15:8]` (rule R15). -/
def hi8 (v : Word) : Byte := v.extractLsb' 8 8

/-- `lo8(v) = v[7:0]` (rule R15). -/
def lo8 (v : Word) : Byte := v.extractLsb' 0 8

/-- `buf[k]` (rule R17). The rules only name bytes a frame has; the 0 makes the function total
(log entry 11). -/
def byteAt (f : List Byte) (k : Nat) : Byte := f.getD k 0

/-- The 16-bit field at byte positions k and k+1, high byte first (rule R121). -/
def wordAt (f : List Byte) (k : Nat) : Word := be16 (byteAt f k) (byteAt f (k + 1))

/-- The two bytes of a 16-bit field, high byte first (rule R94). -/
def wordBytes (v : Word) : List Byte := [hi8 v, lo8 v]

/-- One step of the CRC's inner loop (rule R126). -/
def crcShift (c : Word) : Word := if c.getLsbD 0 then (c >>> 1) ^^^ 0xA001 else c >>> 1

/-- `n` steps of the inner loop. -/
def crcShifts : Nat → Word → Word
  | 0, c => c
  | n + 1, c => crcShifts n (crcShift c)

/-- One byte into the CRC register (rule R126). -/
def crcByte (c : Word) (b : Byte) : Word := crcShifts 8 (c ^^^ b.setWidth 16)

/-- `crc16(s)`, CRC-16/MODBUS (rule R126; its bit order and missing final exclusive-or: log entry 14). -/
def crc16 (s : List Byte) : Word := s.foldl crcByte 0xFFFF

/-- The two CRC bytes of a frame with content `s`, low byte first (rule R127). -/
def crcBytes (s : List Byte) : List Byte := [lo8 (crc16 s), hi8 (crc16 s)]

/-- A frame of content `s`: the content and its CRC (rule R127). -/
def withCrc (s : List Byte) : List Byte := s ++ crcBytes s

/-- The CRC check of a received frame (rule R128). -/
def crcOk (f : List Byte) : Bool :=
  decide (2 ≤ f.length) &&
    crc16 (f.take (f.length - 2)) == be16 (byteAt f (f.length - 1)) (byteAt f (f.length - 2))

/-- `expected_len(buf)`, `none` for UNKNOWN (rule R132). -/
def expectedLen (buf : List Byte) : Option Nat :=
  if buf.length < 2 then none
  else if byteAt buf 1 = 0x10 then
    if buf.length < 7 then none else some (9 + (byteAt buf 6).toNat)
  else some 8

/-- Why the decoder gives no instruction for some bytes. -/
inductive Reject where
  /-- The bytes end before the frame's length is known (rule R132). -/
  | lengthUnknown
  /-- The bytes are not as many as the frame's length (rule R132). -/
  | lengthWrong
  /-- Byte 0 is not SLAVE_ADDR (rule R171). -/
  | otherSlave
  /-- The CRC check fails (rule R172). -/
  | badCrc
  deriving DecidableEq, Repr

/-- The instruction that the function-code byte selects, with its fields (rules R121, R133, R173). -/
def decodeFields (f : List Byte) : Instr :=
  if byteAt f 1 = 0x03 then .rhr (wordAt f 2) (wordAt f 4)
  else if byteAt f 1 = 0x04 then .rir (wordAt f 2) (wordAt f 4)
  else if byteAt f 1 = 0x06 then .wsr (wordAt f 2) (wordAt f 4)
  else if byteAt f 1 = 0x10 then
    .wmr (wordAt f 2) (wordAt f 4) (byteAt f 6) ((f.drop 7).take (byteAt f 6).toNat)
  else .illegal (byteAt f 1) (byteAt f 2) (byteAt f 3) (byteAt f 4) (byteAt f 5)

/-- The decoder: a frame of its expected length, then the address check, the CRC check and the dispatch, in
the order of rules R171 to R173 and R346. -/
def decode (slave : Byte) (f : List Byte) : Except Reject Instr :=
  match expectedLen f with
  | none => .error .lengthUnknown
  | some n =>
    if f.length ≠ n then .error .lengthWrong
    else if byteAt f 0 ≠ slave then .error .otherSlave
    else if crcOk f = false then .error .badCrc
    else .ok (decodeFields f)

/-- A request's function code (rule R133). -/
def Instr.code : Instr → Byte
  | .rhr _ _ => 0x03
  | .rir _ _ => 0x04
  | .wsr _ _ => 0x06
  | .wmr _ _ _ _ => 0x10
  | .illegal fc _ _ _ _ => fc

/-- A request's bytes from byte 2 up to its CRC (rules R122, R123). -/
def Instr.payload : Instr → List Byte
  | .rhr addr qty => wordBytes addr ++ wordBytes qty
  | .rir addr qty => wordBytes addr ++ wordBytes qty
  | .wsr addr value => wordBytes addr ++ wordBytes value
  | .wmr addr qty bc data => wordBytes addr ++ wordBytes qty ++ bc :: data
  | .illegal _ b2 b3 b4 b5 => [b2, b3, b4, b5]

/-- The frame of a request to a slave address (rule R137). -/
def encode (slave : Byte) (i : Instr) : List Byte := withCrc (slave :: i.code :: i.payload)

/-- Byte k of a table word: spec/opcode_table.json numbers its bits from the function-code byte on ("match and
mask apply to this byte"), so byte 0 of the word is byte 1 of the frame. -/
def tableByte (w k : Nat) : Byte := BitVec.ofNat 8 (w >>> (8 * k))

/-- The frame whose bytes from the function code on are the table word `w` of `nbits` bits, every bit above
them 0; the slave address and the CRC, which the table gives no bits, are the ones that pass (log entry 8). -/
def tableFrame (slave : Byte) (nbits w : Nat) : List Byte :=
  let v := w % 2 ^ nbits
  let head := slave :: (List.range 5).map (tableByte v)
  if tableByte v 0 = 0x10 then
    withCrc (head ++ (List.range (1 + (tableByte v 5).toNat)).map fun k => tableByte v (5 + k))
  else withCrc head

/-- The instruction the decoder reads from a table word, for the slave address of the vectors' instance. -/
def decodeTableWord (nbits w : Nat) : Option Instr :=
  match decode Config.vectorParams.slaveAddr (tableFrame Config.vectorParams.slaveAddr nbits w) with
  | .ok i => some i
  | .error _ => none

end Sys2Proof
end

