-- ==== Sys2Proof/Machine/Ops.lean ====
section
/-! DEFINITION. The shared operations: the register-map spaces and their access contract (spec rules R90 to R93),
the write path of rule R222, transmission (R178) and raising a Modbus exception (R343), and the named updates of
the state. There is no return from an exception to model (R350). -/

namespace Sys2Proof.Machine

open Sys2Proof

/-! ## Register-map spaces -/

/-- The reset value of holding register a (rules R35, R55): what an address that `hr` does not list reads as
(log entry 9). -/
def holdingReset (p : Params) (a : Nat) : Word :=
  if a = 0x14 then 2786
  else if a = 0x15 then 115
  else if a = 0x44 then 500
  else if a = 0x45 then 1000
  else if a = 0x46 then 1500
  else if a = 0x47 then 2000
  else if a = 0x48 then 100
  else if a = 0x49 then 50
  else if a = 0x4B then 1
  else if 0x100 ≤ a then p.deviceDefaults.toList.getD (a - 0x100) 0
  else 0

/-- The value at address a: the first listed one, else the reset value. -/
def cellsRead {α : Type} (reset : Nat → α) : Cells α → Nat → α
  | [], a => reset a
  | (b, v) :: m, a => if b = a then v else cellsRead reset m a

/-- List `v` at address a, before the first higher address. -/
def cellsInsert {α : Type} (a : Nat) (v : α) : Cells α → Cells α
  | [] => [(a, v)]
  | (b, w) :: m => if b ≤ a then (b, w) :: cellsInsert a v m else (a, v) :: (b, w) :: m

/-- Store `v` at address a; a value equal to the reset value is not listed. -/
def cellsWrite {α : Type} [DecidableEq α] (reset : Nat → α) (m : Cells α) (a : Nat) (v : α) : Cells α :=
  if v = reset a then m.filter (fun c => c.1 ≠ a) else cellsInsert a v (m.filter (fun c => c.1 ≠ a))

/-- The canonical form from a least address on: addresses strictly rising and below the space's length, and no
listed value equal to its reset value. -/
def cellsWfFrom {α : Type} [DecidableEq α] (reset : Nat → α) (len : Nat) : Nat → Cells α → Bool
  | _, [] => true
  | lo, (a, v) :: m => decide (lo ≤ a) && decide (a < len) && decide (v ≠ reset a) && cellsWfFrom reset len (a + 1) m

/-- The canonical form of a space. -/
def cellsWf {α : Type} [DecidableEq α] (reset : Nat → α) (len : Nat) (m : Cells α) : Bool :=
  cellsWfFrom reset len 0 m

/-- The four spaces of the register map are in canonical form (rule R90). -/
def Memory.wf (s : State) : Bool :=
  cellsWf (holdingReset s.cfg) s.cfg.holdingRegCount s.hr &&
    cellsWf s.cfg.inputRegInit s.cfg.inputRegCount s.ir &&
      cellsWf (fun _ => false) s.cfg.coilCount s.coil && cellsWf (fun _ => false) s.cfg.discCount s.discIn

/-- `HR[a]` (rule R18). -/
def State.hrGet (s : State) (a : Nat) : Word := cellsRead (holdingReset s.cfg) s.hr a

/-- `IR[a]` (rule R18). -/
def State.irGet (s : State) (a : Nat) : Word := cellsRead s.cfg.inputRegInit s.ir a

/-- `COIL[a]` (rule R34). -/
def State.coilGet (s : State) (a : Nat) : Bool := cellsRead (fun _ => false) s.coil a

/-- `DI[a]` (rule R34). -/
def State.discInGet (s : State) (a : Nat) : Bool := cellsRead (fun _ => false) s.discIn a

/-! ## Named updates -/

/-- Replace what the holding registers list. -/
def State.setHr (s : State) (m : Cells Word) : State := { s with hr := m }

/-- Replace what the input registers list. -/
def State.setIr (s : State) (m : Cells Word) : State := { s with ir := m }

/-- `rx_buf <- f` (rule R63). -/
def State.setRxBuf (s : State) (f : List Byte) : State := { s with rxBuf := f }

/-- Replace the state of analog channel i (rule R65). -/
def State.setAi (s : State) (i : Fin 4) (c : AnalogChannel) : State := { s with ai := s.ai.set i.val c i.isLt }

/-- Replace the state of digital channel i (rule R66). -/
def State.setDi (s : State) (i : Fin 4) (c : DigitalChannel) : State := { s with di := s.di.set i.val c i.isLt }

/-- Replace the three occurrence counters (rule R287). -/
def State.setCounts (s : State) (warn crit emerg : Word32) : State :=
  { s with warnCount := warn, critCount := crit, emergCount := emerg }

/-- `reset_required <- b` (rule R62). -/
def State.setLatch (s : State) (b : Bool) : State := { s with resetRequired := b }

/-- Drive the relay and the indicator together (rules R300, R304). -/
def State.setOutputs (s : State) (b : Bool) : State := { s with relayOut := b, indOut := b }

/-- `sys_status <- agg; last_check <- now` (rule R288). -/
def State.setCheck (s : State) (agg : Status) (now : Word32) : State := { s with sysStatus := agg, lastCheck := now }

/-- `uptime_ms <- t` (rule R69). -/
def State.setUptime (s : State) (t : Word32) : State := { s with uptimeMs := t }

/-- Replace the events still to be delivered. -/
def State.setInputs (s : State) (es : List Event) : State := { s with inputs := es }

/-- Record one response on the transmit port, its outcome the next draw (rule R178). The outcome changes
nothing else (rule R179). -/
def State.logTx (s : State) (frame : List Byte) : State :=
  { s with txLog := s.txLog ++ [⟨frame, Config.txOutcome s.txCount⟩], txCount := s.txCount + 1 }

/-- `HR[a] <- v` (rule R18). -/
def State.hrSet (s : State) (a : Nat) (v : Word) : State :=
  s.setHr (cellsWrite (holdingReset s.cfg) s.hr a v)

/-- `IR[a] <- v`; no rule issues it (rule R92). -/
def State.irSet (s : State) (a : Nat) (v : Word) : State := s.setIr (cellsWrite s.cfg.inputRegInit s.ir a v)

/-! ## The access contract -/

/-- The length of a space (rule R90). -/
def State.spaceLen (s : State) : Space → Nat
  | .holding => s.cfg.holdingRegCount
  | .input => s.cfg.inputRegCount

/-- `space[a]` (rule R92). -/
def State.spaceGet (s : State) : Space → Nat → Word
  | .holding, a => s.hrGet a
  | .input, a => s.irGet a

/-- `space[a] <- v` (rule R92). -/
def State.spaceSet (s : State) : Space → Nat → Word → State
  | .holding, a, v => s.hrSet a v
  | .input, a, v => s.irSet a v

/-- `RegRead(space, a)` (rules R18, R92). -/
def regRead (sp : Space) (a : Nat) (s : State) : Except Fault Word :=
  if s.spaceLen sp ≤ a then .error (.outOfRange sp a) else .ok (s.spaceGet sp a)

/-- `RegWrite(space, a, v)` (rules R18, R92). -/
def regWrite (sp : Space) (a : Nat) (v : Word) (s : State) : Except Fault State :=
  if s.spaceLen sp ≤ a then .error (.outOfRange sp a) else .ok (s.spaceSet sp a v)

/-- `qty` consecutive reads from address a on (rules R200, R201). -/
def readRun (sp : Space) (s : State) : Nat → Nat → Except Fault (List Word)
  | _, 0 => .ok []
  | a, n + 1 =>
    match regRead sp a s with
    | .error e => .error e
    | .ok v =>
      match readRun sp s (a + 1) n with
      | .error e => .error e
      | .ok vs => .ok (v :: vs)

/-- RESET_ERROR_CMD (rule R54). -/
def resetErrorCmd : Nat := 0x109

/-- SYS_ERROR (rule R54). -/
def sysError : Nat := 0x108

/-- The side effect of the write path: the reset-error command clears SYS_ERROR and the latch (rule R222). -/
def resetErrorEffect (a : Nat) (v : Word) (s : State) : State :=
  if a = resetErrorCmd ∧ v = 1 then (s.hrSet sysError 0).setLatch false else s

/-- The write path `hr_write(a, v)` (rule R222). -/
def hrWrite (a : Nat) (v : Word) (s : State) : Except Fault State :=
  match regWrite .holding a v s with
  | .error e => .error e
  | .ok s1 => .ok (resetErrorEffect a v s1)

/-- Writes of consecutive registers from address a on, in ascending order (rules R221, R223). -/
def hrWriteRun : Nat → List Word → State → Except Fault State
  | _, [], s => .ok s
  | a, v :: vs, s =>
    match hrWrite a v s with
    | .error e => .error e
    | .ok s1 => hrWriteRun (a + 1) vs s1

/-! ## Responses -/

/-- `Transmit(resp ++ [lo8(crc16(resp)), hi8(crc16(resp))])` (rules R170, R174, R178). -/
def transmit (resp : List Byte) (s : State) : State := s.logTx (withCrc resp)

/-- `raise ModbusException(code)` for a request with function code fc (rule R343): the exception response and
nothing else; no state is saved, no mode changes and no control moves (rule R349). -/
def raiseException (fc code : Byte) (s : State) : State := transmit [s.cfg.slaveAddr, fc ||| 0x80, code] s

/-- Exception code 0x01 (rule R341). -/
def illegalFunction : Byte := 0x01

/-- Exception code 0x02 (rule R341). -/
def illegalDataAddress : Byte := 0x02

end Sys2Proof.Machine
end

