-- ==== Sys2Proof/Machine/Operands.lean ====
section
/-! DEFINITION. Every operand form: the fields and response bodies of the requests (spec rules R121 to R125), and
the configuration registers and samples that a monitor cycle reads (R43 to R52, R262 to R266, R275, R276). -/

namespace Sys2Proof.Machine

open Sys2Proof

/-! ## Requests -/

/-- The word `data[k]` of a 0x10 request, for k from 0 to qty-1: bytes 2k and 2k+1 of its data (rule R121).
A decoded request that passes rule R221's check has them all. -/
def dataWords (data : List Byte) (qty : Nat) : List Word := (List.range qty).map fun k => wordAt data (2 * k)

/-- The content of a read response, format RSP_READ (rule R124). -/
def readResponse (slave fc : Byte) (vs : List Word) : List Byte :=
  slave :: fc :: BitVec.ofNat 8 (2 * vs.length) :: vs.flatMap wordBytes

/-- The content of an echo response, format RSP_ECHO: the request's first six bytes (rule R125). -/
def echoResponse (slave fc : Byte) (x y : Word) : List Byte := slave :: fc :: (wordBytes x ++ wordBytes y)

/-! ## Register addresses (rule R35) -/

/-- `AIx_VALUE` of channel i. -/
def aiValueAddr (i : Fin 4) : Nat := 0x10 + i.val

/-- `AIx_ENABLE` of channel i. -/
def aiEnableAddr (i : Fin 4) : Nat := 0x1A + i.val

/-- `DIx_STATUS` of channel i. -/
def diStatusAddr (i : Fin 4) : Nat := 0x22 + i.val

/-- `DIx_ENABLE` of channel i. -/
def diEnableAddr (i : Fin 4) : Nat := 0x26 + i.val

/-- `DIx_ACTIVE_LEVEL` of channel i. -/
def diActiveLevelAddr (i : Fin 4) : Nat := 0x2A + i.val

/-! ## Configuration read by a cycle -/

/-- Analog channel i is enabled (rules R44, R262). -/
def State.aiEnabled (s : State) (i : Fin 4) : Bool := s.hrGet (aiEnableAddr i) != 0

/-- Digital channel i is enabled (rules R46, R275). -/
def State.diEnabled (s : State) (i : Fin 4) : Bool := s.hrGet (diEnableAddr i) != 0

/-- Digital channel i is active-high (rules R47, R276). -/
def State.activeHigh (s : State) (i : Fin 4) : Bool := s.hrGet (diActiveLevelAddr i) != 0

/-- Auto-reset is enabled (rule R52). -/
def State.autoReset (s : State) : Bool := s.hrGet 0x4A != 0

/-- The zone classification against Z1..Z4 of the register map (rules R49, R267). -/
def State.classifyDist (s : State) (d : Dist) : Status × Byte :=
  classify (s.hrGet 0x44) (s.hrGet 0x45) (s.hrGet 0x46) (s.hrGet 0x47) d

/-- The inactive test `raw * V_REF_MV < 409600` (rule R264). -/
def inactive (p : Params) (raw : Raw12) : Bool := decide (raw.toNat * p.vRefMv < 409600)

/-- The calibrated distance: 0 when inactive, else DIST_FN with the shared gain and offset (rules R264, R265). -/
def State.distance (s : State) (raw : Raw12) : Dist :=
  if inactive s.cfg raw then Dist.zero else Config.distFn s.cfg raw (s.hrGet 0x14) (s.hrGet 0x15)

/-- The processed value `floor(raw * V_REF_MV / 4096)` in millivolts (rule R266). -/
def millivolts (p : Params) (raw : Raw12) : Word := BitVec.ofNat 16 (raw.toNat * p.vRefMv / 4096)

/-- The lesser of two unsigned words (rule R269). -/
def wordMin (x y : Word) : Word := if x.toNat ≤ y.toNat then x else y

/-- The greater of two unsigned words (rule R269). -/
def wordMax (x y : Word) : Word := if x.toNat ≤ y.toNat then y else x

end Sys2Proof.Machine
end

