-- ==== Sys2Proof/Machine/Illegal.lean ====
section
/-! DEFINITION. Every function code outside the supported set (spec rule R250). -/

namespace Sys2Proof.Machine

open Sys2Proof

/-- Exception 0x01, unconditionally; bytes 2 to 5 are not interpreted (rule R250). -/
def execIllegal (fc : Byte) (s : State) : Host.Outcome State Fault Refusal :=
  .next (raiseException fc illegalFunction s)

end Sys2Proof.Machine
end

