-- ==== Sys2Proof/Machine/Read.lean ====
section
/-! DEFINITION. The read family: 0x03 `RHR` (spec rule R200) and 0x04 `RIR` (R201). -/

namespace Sys2Proof.Machine

open Sys2Proof

/-- What both read functions do: the range check on the exact sum, the quantity check, the reads, the response
(rules R200, R201). -/
def readRegisters (sp : Space) (fc : Byte) (addr qty : Word) (s : State) : Host.Outcome State Fault Refusal :=
  if s.spaceLen sp < addr.toNat + qty.toNat then .next (raiseException fc illegalDataAddress s)
  else if s.cfg.maxReadQty < qty.toNat then .next (raiseException fc illegalDataAddress s)
  else
    match readRun sp s addr.toNat qty.toNat with
    | .error e => .fault e
    | .ok vs => .next (transmit (readResponse s.cfg.slaveAddr fc vs) s)

/-- 0x03, read holding registers (rule R200). -/
def execRhr (addr qty : Word) (s : State) : Host.Outcome State Fault Refusal :=
  readRegisters .holding 0x03 addr qty s

/-- 0x04, read input registers (rule R201). -/
def execRir (addr qty : Word) (s : State) : Host.Outcome State Fault Refusal :=
  readRegisters .input 0x04 addr qty s

end Sys2Proof.Machine
end

