-- ==== Sys2Proof/Machine/Write.lean ====
section
/-! DEFINITION. The write family: 0x06 `WSR` (spec rule R220) and 0x10 `WMR` (R221), over the write path of R222. -/

namespace Sys2Proof.Machine

open Sys2Proof

/-- 0x06, write single holding register (rule R220). -/
def execWsr (addr value : Word) (s : State) : Host.Outcome State Fault Refusal :=
  if s.cfg.holdingRegCount ≤ addr.toNat then .next (raiseException 0x06 illegalDataAddress s)
  else
    match hrWrite addr.toNat value s with
    | .error e => .fault e
    | .ok s1 => .next (transmit (echoResponse s.cfg.slaveAddr 0x06 addr value) s1)

/-- 0x10, write multiple holding registers (rules R221, R223). -/
def execWmr (addr qty : Word) (bc : Byte) (data : List Byte) (s : State) : Host.Outcome State Fault Refusal :=
  if s.cfg.holdingRegCount < addr.toNat + qty.toNat ∨ bc.toNat ≠ 2 * qty.toNat then
    .next (raiseException 0x10 illegalDataAddress s)
  else
    match hrWriteRun addr.toNat (dataWords data qty.toNat) s with
    | .error e => .fault e
    | .ok s1 => .next (transmit (echoResponse s.cfg.slaveAddr 0x10 addr qty) s1)

end Sys2Proof.Machine
end

