-- ==== Sys2Proof/Machine/Dispatch.lean ====
section
/-! DEFINITION. The dispatch on the function code (spec rules R133, R173): one arm per instruction. -/

namespace Sys2Proof.Machine

open Sys2Proof

def exec (i : Instr) (s : State) : Host.Outcome State Fault Refusal :=
  match i with
  | .rhr addr qty => Sys2Proof.Machine.execRhr addr qty s
  | .rir addr qty => Sys2Proof.Machine.execRir addr qty s
  | .wsr addr value => Sys2Proof.Machine.execWsr addr value s
  | .wmr addr qty bc data => Sys2Proof.Machine.execWmr addr qty bc data s
  | .illegal fc _ _ _ _ => Sys2Proof.Machine.execIllegal fc s

end Sys2Proof.Machine
end

