-- ==== Sys2Proof/Machine/Monitor.lean ====
section
/-! DEFINITION. The safety monitor: one step per `Cycle` event (spec rules R260 to R324). -/

namespace Sys2Proof.Machine

open Sys2Proof

/-- The four channels in order (rule R260). -/
def channels : List (Fin 4) := [0, 1, 2, 3]

/-! ## Analog path -/

/-- A channel after a good reading with distance d (rule R269). -/
def AnalogChannel.goodReading (c : AnalogChannel) (raw : Raw12) (zone : Status × Byte) (d : Dist) (mv : Word) :
    AnalogChannel :=
  { c with
    raw := raw, status := zone.1, flags := zone.2, dist := d, mv := mv,
    minMv := wordMin c.minMv mv, maxMv := wordMax c.maxMv mv }

/-- A channel after a sensor read error: the last good reading stays (rule R268). -/
def AnalogChannel.readError (c : AnalogChannel) (raw : Raw12) (zone : Status × Byte) : AnalogChannel :=
  { c with raw := raw, status := zone.1, flags := zone.2, errors := c.errors + 1 }

/-- An enabled channel's reading with distance d (rules R267 to R269). -/
def analogReading (i : Fin 4) (raw : Raw12) (d : Dist) (s : State) : State :=
  if (s.classifyDist d).1 = .error then s.setAi i (s.ai[i].readError raw (s.classifyDist d))
  else
    (s.setAi i (s.ai[i].goodReading raw (s.classifyDist d) d (millivolts s.cfg raw))).hrSet (aiValueAddr i)
      (millivolts s.cfg raw)

/-- `analog_step(i, raw)` (rules R262, R270). -/
def analogStep (i : Fin 4) (raw : Raw12) (s : State) : State :=
  if s.aiEnabled i then analogReading i raw (s.distance raw) s else s

/-! ## Digital path -/

/-- The time of the last raw edge, this sample included (rule R277). -/
def DigitalChannel.edgeAfter (c : DigitalChannel) (lvl : Bool) (now : Word32) : Word32 :=
  if lvl != c.prevLevel then now else c.edgeTime

/-- The debounced state changes at this sample: it differs from the active comparison, and the level has
persisted strictly longer than the debounce interval, modulo 2^32 (rules R278, R356). -/
def DigitalChannel.commits (c : DigitalChannel) (lvl act : Bool) (now interval : Word32) : Bool :=
  act != c.active && decide (interval.toNat < (now - c.edgeAfter lvl now).toNat)

/-- The debounced state after this sample (rule R278). -/
def DigitalChannel.activeAfter (c : DigitalChannel) (lvl act : Bool) (now interval : Word32) : Bool :=
  if c.commits lvl act now interval then act else c.active

/-- An enabled channel after a sample (rules R277 to R279). -/
def DigitalChannel.sample (c : DigitalChannel) (lvl act : Bool) (now interval : Word32) : DigitalChannel where
  level := lvl
  prevLevel := lvl
  edgeTime := c.edgeAfter lvl now
  active := c.activeAfter lvl act now interval
  changes := if c.commits lvl act now interval then c.changes + 1 else c.changes
  commitTime := if c.commits lvl act now interval then now else c.commitTime
  errors := c.errors
  flags := digitalFlags (c.activeAfter lvl act now interval)

/-- The channel i of the state after a sample, against its configured active level (rule R276). -/
def State.diSampled (s : State) (i : Fin 4) (lvl : Bool) (now : Word32) : DigitalChannel :=
  s.di[i].sample lvl (lvl == s.activeHigh i) now s.cfg.debounceMs[i]

/-- `digital_step(i, lvl, now)` (rules R275, R280). -/
def digitalStep (i : Fin 4) (lvl : Bool) (now : Word32) (s : State) : State :=
  if s.diEnabled i then
    (s.setDi i (s.diSampled i lvl now)).hrSet (diStatusAddr i) (if (s.diSampled i lvl now).active then 1 else 0)
  else s

/-! ## Aggregation, counters, outputs -/

/-- The statuses of the enabled channels, analog first then digital (rule R285). -/
def State.statuses (s : State) : List Status :=
  (channels.filter s.aiEnabled).map (fun i => s.ai[i].status) ++
    (channels.filter s.diEnabled).map (fun i => digitalStatus s.di[i].active)

/-- `aggregate()` (rule R285). -/
def State.aggregate (s : State) : Status := precedence s.statuses

/-- `count(agg)` (rule R287). -/
def countAggregate (agg : Status) (s : State) : State :=
  s.setCounts (if agg = .warning then s.warnCount + 1 else s.warnCount)
    (if agg = .critical then s.critCount + 1 else s.critCount)
    (if agg = .emergency then s.emergCount + 1 else s.emergCount)

/-- `drive_outputs(agg)` (rules R301 to R303). -/
def driveOutputs (agg : Status) (s : State) : State :=
  match agg with
  | .critical => (s.setOutputs true).setLatch true
  | .ok =>
    let s1 := if s.autoReset then s.setLatch false else s
    if s1.resetRequired then s1 else s1.setOutputs false
  | .warning => s
  | .emergency => s
  | .error => s

/-! ## Publication -/

/-- The zone status: the OR of the alarm flags of the enabled analog channels (rule R321). -/
def State.zoneStatus (s : State) : Word :=
  (channels.filter s.aiEnabled).foldl (fun z i => z ||| (s.ai[i].flags).setWidth 16) 0

/-- Analog channel i has a good reading at or below PROX_THRESH (rule R322). -/
def State.proximate (s : State) (i : Fin 4) : Bool :=
  s.aiEnabled i && s.ai[i].status != .error && Dist.le s.ai[i].dist (s.hrGet 0x48)

/-- The proximity alert (rule R322). -/
def State.proxAlert (s : State) : Word := if channels.any s.proximate then 1 else 0

/-- Analog channel i is enabled and classified ERROR (rule R324). -/
def State.inError (s : State) (i : Fin 4) : Bool := s.aiEnabled i && s.ai[i].status == .error

/-- The safety error code: bit i for an enabled analog channel classified ERROR (rule R324). -/
def State.errorMask (s : State) : Word :=
  (channels.filter s.inError).foldl (fun e i => e + BitVec.ofNat 16 (2 ^ i.val)) 0

/-- `publish(agg)`, with every value taken from the state it is given (rules R320 to R324). -/
def publish (agg : Status) (s : State) : State :=
  ((((s.hrSet 0x0 agg.code).hrSet 0x2 s.zoneStatus).hrSet 0x3 s.proxAlert).hrSet 0x4
    (if s.relayOut then 1 else 0)).hrSet 0x5 s.errorMask

/-! ## The cycle -/

/-- The analog channels, in order (rule R260). -/
def sampleAnalog (a : Vector Raw12 4) (s : State) : State := channels.foldl (fun t i => analogStep i a[i] t) s

/-- The digital channels, in order (rule R260). -/
def sampleDigital (d : Vector Bool 4) (now : Word32) (s : State) : State :=
  channels.foldl (fun t i => digitalStep i d[i] now t) s

/-- The sampling half of a cycle: the analog channels, then the digital ones (rule R260). -/
def sampleChannels (a : Vector Raw12 4) (d : Vector Bool 4) (s : State) : State :=
  sampleDigital d s.uptimeMs (sampleAnalog a s)

/-- The deciding half of a cycle: count, drive the outputs, publish, and note the check (rules R260, R288). -/
def concludeCycle (agg : Status) (now : Word32) (s : State) : State :=
  (publish agg (driveOutputs agg (countAggregate agg s))).setCheck agg now

/-- A whole cycle (rule R260). -/
def runCycle (a : Vector Raw12 4) (d : Vector Bool 4) (s : State) : State :=
  concludeCycle (sampleChannels a d s).aggregate s.uptimeMs (sampleChannels a d s)

end Sys2Proof.Machine
end

