-- ==== Sys2Proof/Machine/Engine.lean ====
section
/-! DEFINITION. What each input event does (spec rules R12, R70): the frame receiver (R160 to R167), the processing
of a complete frame (R170 to R173), the monitor cycle, the millisecond tick (R357) and the reset (R380). -/

namespace Sys2Proof.Machine

open Sys2Proof

/-- `process_frame(f)`: the address check, the CRC check, then the instruction (rules R170 to R173). A frame
that the decoder rejects is dropped silently (rule R344); a complete one is rejected for no other reason than
its address or its CRC. -/
def processFrame (f : List Byte) (s : State) : Host.Outcome State Fault Refusal :=
  match decode s.cfg.slaveAddr f with
  | .ok i => exec i s
  | .error _ => .next s

/-- `RxByte(b)`: accumulation up to the expected length, or overflow of a full buffer, the byte included
(rules R161, R162; log entry 13). -/
def onRxByte (b : Byte) (s : State) : Host.Outcome State Fault Refusal :=
  if s.rxBuf.length < s.cfg.frameBufSize then
    if expectedLen (s.rxBuf ++ [b]) = some (s.rxBuf.length + 1) then
      processFrame (s.rxBuf ++ [b]) (s.setRxBuf [])
    else .next (s.setRxBuf (s.rxBuf ++ [b]))
  else .next (s.setRxBuf [])

/-- `RxError`: the partial frame is discarded (rule R165). -/
def onRxError (s : State) : State := s.setRxBuf []

/-- `RxSilence`: like `RxError` when SILENCE_RESET holds; else the event does not exist (rule R166). -/
def onRxSilence (s : State) : Host.Outcome State Fault Refusal :=
  if s.cfg.silenceReset then .next (onRxError s) else .refused .noSilenceTimer

/-- `MsTick` (rule R357). -/
def onMsTick (s : State) : State := s.setUptime (s.uptimeMs + 1)

/-- `Reset`: every piece of SMCORE's state takes its reset value; the parameters and the environment's side of
the ports stay (rules R380, R381; log entry 6). -/
def onReset (s : State) : State :=
  { State.resetOf s.cfg with inputs := s.inputs, txLog := s.txLog, txCount := s.txCount }

/-- One event, as one step (rules R12, R13). -/
def onEvent (e : Event) (s : State) : Host.Outcome State Fault Refusal :=
  match e with
  | .rxByte b => onRxByte b s
  | .rxError => .next (onRxError s)
  | .rxSilence => onRxSilence s
  | .cycle a d => .next (runCycle a d s)
  | .msTick => .next (onMsTick s)
  | .reset => .next (onReset s)

/-- The next event is taken off the list and processed; with none to deliver nothing happens (log entry 1). -/
def stepEvent (s : State) : Host.Outcome State Fault Refusal :=
  match s.inputs with
  | [] => .next s
  | e :: es => onEvent e (s.setInputs es)

/-- All of a frame but its last byte stands in the receiver, and that byte is the next event. -/
def placeFrame (f : List Byte) (s : State) : State :=
  { s with rxBuf := f.dropLast, inputs := f.getLast?.toList.map Event.rxByte ++ s.inputs }

end Sys2Proof.Machine
end

