-- ==== Sys2Proof/Machine/Step.lean ====
section
/-! DEFINITION. The step: one event of the environment (spec rule R13), and where the next request is placed. -/

namespace Sys2Proof.Machine

open Sys2Proof

/-- One step: the next event, to its end. -/
def step (s : State) : Host.Outcome State Fault Refusal := stepEvent s

/-- The request of a table word is received but for its last byte, which comes next, so that the very next step
completes the frame and runs it (rules R162, R170; log entry 8). -/
def State.withFetchWord (s : State) (nbits w : Nat) : State := placeFrame (tableFrame s.cfg.slaveAddr nbits w) s

end Sys2Proof.Machine
end

