-- ==== Sys2Proof/Safety.lean ====
section
/-! DEFINITION. The terms the statements use: the exception causes of spec rule R342, the reset-error command inside a
request (R222), and the invariants of a running SMCORE. -/

namespace Sys2Proof

/-- A request that gives the reset-error command: it writes 1 to RESET_ERROR_CMD (rules R54, R222). -/
def Instr.givesResetError : Instr → Prop
  | .wsr addr value => addr.toNat = 0x109 ∧ value = 1
  | .wmr addr qty _ data => ∃ k, k < qty.toNat ∧ addr.toNat + k = 0x109 ∧ wordAt data (2 * k) = 1
  | _ => False

end Sys2Proof

namespace Sys2Proof.Machine

open Sys2Proof

/-! ## Requests -/

/-- The exception a request raises, by the table of causes (rule R342); `none` when it executes normally. -/
def exceptionOf (p : Params) : Instr → Option Byte
  | .rhr addr qty =>
    if p.holdingRegCount < addr.toNat + qty.toNat ∨ p.maxReadQty < qty.toNat then some 0x02 else none
  | .rir addr qty =>
    if p.inputRegCount < addr.toNat + qty.toNat ∨ p.maxReadQty < qty.toNat then some 0x02 else none
  | .wsr addr _ => if p.holdingRegCount ≤ addr.toNat then some 0x02 else none
  | .wmr addr qty bc _ =>
    if p.holdingRegCount < addr.toNat + qty.toNat ∨ bc.toNat ≠ 2 * qty.toNat then some 0x02 else none
  | .illegal _ _ _ _ _ => some 0x01

/-- Everything but the register map's holding registers, the latch and the transmit port is as before: all that a
request may change (rule R177). -/
def RequestFrame (s t : State) : Prop :=
  t = { s with hr := t.hr, resetRequired := t.resetRequired, txLog := t.txLog, txCount := t.txCount }

/-- One response is transmitted: `content` and its CRC, with the next outcome drawn (rules R174, R178). -/
def Responds (content : List Byte) (s t : State) : Prop :=
  t.txLog = s.txLog ++ [⟨withCrc content, Config.txOutcome s.txCount⟩] ∧ t.txCount = s.txCount + 1

/-! ## The monitor -/

/-- The holding registers a cycle publishes, those of the enabled channels included (rule R320, D35). -/
def publishedAddrs : List Nat :=
  [0x0, 0x2, 0x3, 0x4, 0x5, 0x10, 0x11, 0x12, 0x13, 0x22, 0x23, 0x24, 0x25]

/-- A cycle of this state publishes holding register a: one of the system's, or an enabled channel's (rules R262, R275,
R320). -/
def State.publishes (s : State) (a : Nat) : Prop :=
  a ∈ [0x0, 0x2, 0x3, 0x4, 0x5] ∨ (∃ i : Fin 4, a = 0x10 + i.val ∧ s.aiEnabled i = true) ∨
    ∃ i : Fin 4, a = 0x22 + i.val ∧ s.diEnabled i = true

/-- Some enabled channel has status CRITICAL (rules R279, R285). -/
def State.someCritical (s : State) : Prop :=
  (∃ i : Fin 4, s.aiEnabled i = true ∧ s.ai[i].status = .critical) ∨
    ∃ i : Fin 4, s.diEnabled i = true ∧ s.di[i].active = true

/-- Some enabled analog channel has the given status (rule R285). -/
def State.someAnalog (s : State) (st : Status) : Prop := ∃ i : Fin 4, s.aiEnabled i = true ∧ s.ai[i].status = st

/-- The rank of a classification along the chain of rule R267: 0 for ERROR, then CRITICAL, WARNING(high),
WARNING(low), OK with the low-level alert, OK. -/
def zoneRank (z : Status × Byte) : Nat :=
  if z = (.error, afError) then 0
  else if z = (.critical, afCritical) then 1
  else if z = (.warning, afWarnHigh) then 2
  else if z = (.warning, afWarnLow) then 3
  else if z = (.ok, afLowAlert) then 4
  else 5

/-- `d ≤ d'` as exact numbers. -/
def Dist.leDist (d d' : Dist) : Prop := d.num * (d'.denPred + 1) ≤ d'.num * (d.denPred + 1)

/-! ## Invariants -/

/-- The status and flags pairs that a classification gives (rules R61, R267); (OK, 0) is also the reset pair. -/
def legalZones : List (Status × Byte) :=
  [(.error, 0x01), (.critical, 0x02), (.warning, 0x04), (.warning, 0x08), (.ok, 0x10), (.ok, 0x00)]

/-- The receiver holds at most a buffer full, and never a complete frame (rules R63, R162, R163). -/
def State.receiverPartial (s : State) : Prop :=
  s.rxBuf.length ≤ s.cfg.frameBufSize ∧ ∀ n, expectedLen s.rxBuf = some n → s.rxBuf.length < n

/-- Nothing has produced EMERGENCY, the emergency-stop flag or a digital error (rules R279, R330). -/
def State.noEmergency (s : State) : Prop :=
  s.emergCount = 0 ∧ s.estop = false ∧ s.sysStatus ≠ .emergency ∧
    (∀ i : Fin 4, s.ai[i].status ≠ .emergency) ∧ ∀ i : Fin 4, s.di[i].errors = 0

/-- The two protective outputs are driven together, and asserted while the latch is set (rules R300 to R303). -/
def State.outputsLatched (s : State) : Prop :=
  s.relayOut = s.indOut ∧ (s.resetRequired = true → s.relayOut = true)

/-- Every channel's alarm flags are those of its status (rules R61, R267, R279). -/
def State.flagsLegal (s : State) : Prop :=
  (∀ i : Fin 4, (s.ai[i].status, s.ai[i].flags) ∈ legalZones) ∧
    ∀ i : Fin 4, s.di[i].flags = if s.di[i].active then 0x02 else 0x00

/-- The input registers, coils and discrete inputs read as after reset (rules R33, R34). -/
def State.unwrittenSpaces (s : State) : Prop :=
  (∀ a, s.irGet a = s.cfg.inputRegInit a) ∧ (∀ a, s.coilGet a = false) ∧ ∀ a, s.discInGet a = false

/-- An analog channel has had no good reading, or its statistics bound its last one (rules R65, R269). -/
def AnalogChannel.statsBound (c : AnalogChannel) : Prop :=
  (c.minMv = 0xFFFF ∧ c.maxMv = 0 ∧ c.mv = 0) ∨
    (c.minMv.toNat ≤ c.mv.toNat ∧ c.mv.toNat ≤ c.maxMv.toNat ∧ c.maxMv.toNat ≤ 65520)

/-- The statistics of every analog channel bound its last good reading. -/
def State.statsBound (s : State) : Prop := ∀ i : Fin 4, s.ai[i].statsBound

/-- SMCORE runs safely: the register map is canonical, the receiver holds a partial frame, the flags and
statistics are legal, nothing without a producer has changed, and the protective outputs are latched. -/
def State.safe (s : State) : Prop :=
  Memory.wf s = true ∧ s.receiverPartial ∧ s.noEmergency ∧ s.outputsLatched ∧ s.flagsLegal ∧ s.unwrittenSpaces ∧
    s.statsBound

end Sys2Proof.Machine
end

