-- ==== Sys2Proof/Certificates/Slice0/Obligations.lean ====
section
/-! DEFINITION. The statements about SMCORE, file by file of spec/: encoding (spec rules R120 to R137), receiver and
engine (R160 to R179), requests (R200 to R250), monitor (R260 to R332), exceptions, timer, reset (R340 to R398),
invariants. -/

section Statements

open Sys2Proof Sys2Proof.Machine

/-! ## Encoding -/

/-- Five request frames of spec/95_test_vectors.md, one per row of the opcode table, decode to their requests. -/
def Obligations.SpecFramesDecode : Prop :=
  decode 0x01 [0x01, 0x03, 0x00, 0x10, 0x00, 0x04, 0x45, 0xCC] = .ok (.rhr 0x0010 4) ∧
    decode 0x01 [0x01, 0x04, 0x00, 0x0F, 0x00, 0x01, 0x01, 0xC9] = .ok (.rir 0x000F 1) ∧
    decode 0x01 [0x01, 0x06, 0x00, 0x44, 0x04, 0xD2, 0x4B, 0x42] = .ok (.wsr 0x0044 1234) ∧
    decode 0x01 [0x01, 0x10, 0x01, 0x08, 0x00, 0x02, 0x04, 0x12, 0x34, 0x00, 0x01, 0x7A, 0xEF] =
      .ok (.wmr 0x0108 2 4 [0x12, 0x34, 0x00, 0x01]) ∧
    decode 0x01 [0x01, 0x83, 0x00, 0x00, 0x00, 0x01, 0x85, 0xD4] = .ok (.illegal 0x83 0x00 0x00 0x00 0x01)

/-- Decoding the frame of any well-formed request, sent to the decoder's own slave address, gives the request. -/
def Obligations.DecodeOfEncode : Prop :=
  ∀ (slave : Byte) (i : Instr), i.wf = true → decode slave (encode slave i) = .ok i

/-- Whatever bytes decode to a request are that request's frame, and the request is well-formed: each frame has
one meaning and each request one frame. -/
def Obligations.EncodeOfDecode : Prop :=
  ∀ (slave : Byte) (f : List Byte) (i : Instr), decode slave f = .ok i → i.wf = true ∧ encode slave i = f

/-- Rule R129: every byte sequence with its CRC passes the CRC check, the CRC over the whole frame is 0, and the
rule's example. -/
def Obligations.CrcSelfConsistent : Prop :=
  (∀ s : List Byte,
    crcOk (s ++ [lo8 (crc16 s), hi8 (crc16 s)]) = true ∧ crc16 (s ++ [lo8 (crc16 s), hi8 (crc16 s)]) = 0) ∧
    crc16 [0x01, 0x03, 0x00, 0x00, 0x00, 0x0A] = 0xCDC5 ∧
    withCrc [0x01, 0x03, 0x00, 0x00, 0x00, 0x0A] = [0x01, 0x03, 0x00, 0x00, 0x00, 0x0A, 0xC5, 0xCD]

/-- Rule R128: a frame passes exactly when the CRC of all but its last two bytes is those two, low byte first. -/
def Obligations.CrcCheckIsExact : Prop :=
  ∀ (s : List Byte) (lo hi : Byte),
    crcOk (s ++ [lo, hi]) = true ↔ (crc16 s).toNat = lo.toNat + 256 * hi.toNat

/-- Rule R132: the expected length of a partial frame. -/
def Obligations.ExpectedLengthOfPartialFrame : Prop :=
  (∀ buf : List Byte, buf.length < 2 → expectedLen buf = none) ∧
    (∀ b0 fc : Byte, ∀ rest, fc ≠ 0x10 → expectedLen (b0 :: fc :: rest) = some 8) ∧
    (∀ b0 : Byte, ∀ rest, rest.length < 5 → expectedLen (b0 :: 0x10 :: rest) = none) ∧
    ∀ b0 b2 b3 b4 b5 bc : Byte, ∀ rest,
      expectedLen (b0 :: 0x10 :: b2 :: b3 :: b4 :: b5 :: bc :: rest) = some (9 + bc.toNat)

/-! ## Receiver -/

/-- Rule R161: a byte that finds the buffer full is discarded with the partial frame; nothing else changes. -/
def Obligations.FullBufferIsDiscarded : Prop :=
  ∀ (s : State) (b : Byte) (es : List Event),
    s.inputs = .rxByte b :: es → s.rxBuf.length = s.cfg.frameBufSize →
      step s = .next { s with rxBuf := [], inputs := es }

/-- Rule R162: a byte is appended; when the new length is the expected one the receiver is idle again and the
frame is processed in the same step. -/
def Obligations.ByteIsAccumulated : Prop :=
  ∀ (s : State) (b : Byte) (es : List Event),
    s.inputs = .rxByte b :: es → s.rxBuf.length < s.cfg.frameBufSize →
      (expectedLen (s.rxBuf ++ [b]) ≠ some (s.rxBuf.length + 1) →
          step s = .next { s with rxBuf := s.rxBuf ++ [b], inputs := es }) ∧
        (expectedLen (s.rxBuf ++ [b]) = some (s.rxBuf.length + 1) →
          step s = processFrame (s.rxBuf ++ [b]) { s with rxBuf := [], inputs := es })

/-- Rule R165: a transport error discards the partial frame and nothing else. -/
def Obligations.TransportErrorClearsReceiver : Prop :=
  ∀ (s : State) (es : List Event), s.inputs = .rxError :: es → step s = .next { s with rxBuf := [], inputs := es }

/-- Rule R166: with SILENCE_RESET, line silence acts exactly like a transport error. Without it "the event does
not exist", and the model's choice is a refusal by name (log entry 7). -/
def Obligations.LineSilence : Prop :=
  ∀ (s : State) (es : List Event), s.inputs = .rxSilence :: es →
    (s.cfg.silenceReset = true →
        step s = .next { s with rxBuf := [], inputs := es } ∧ step s = step { s with inputs := .rxError :: es }) ∧
      (s.cfg.silenceReset = false → step s = .refused .noSilenceTimer)

/-- A step runs the decoded instruction: when the next byte completes a frame that decodes, the step is `exec` of
the decoded request, with the receiver idle and the event taken. -/
def Obligations.StepRunsDecodedRequest : Prop :=
  ∀ (s : State) (b : Byte) (es : List Event) (i : Instr),
    s.inputs = .rxByte b :: es → s.rxBuf.length < s.cfg.frameBufSize →
      decode s.cfg.slaveAddr (s.rxBuf ++ [b]) = .ok i →
        i.wf = true ∧ step s = exec i { s with rxBuf := [], inputs := es }

/-- A well-formed request that fits the buffer, delivered byte by byte to an idle receiver, is executed once, by
its last byte, and leaves the receiver idle for what follows. -/
def Obligations.DeliveredRequestIsExecuted : Prop :=
  ∀ (s : State) (i : Instr) (es : List Event),
    i.wf = true → i.fits s.cfg = true → s.rxBuf = [] →
      s.inputs = (encode s.cfg.slaveAddr i).map Event.rxByte ++ es →
        Host.Core.run Sys2Proof.core i.frameLen s = exec i { s with inputs := es }

/-- The first FRAME_BUF_SIZE + 1 bytes of a request longer than the frame buffer have no effect: the last of them
overflows it. The bytes after them start a new frame (rule R164); when they are at most seven, they stay in the
receiver as a partial frame. With FRAME_BUF_SIZE = 256 the longer requests are the 0x10 ones with a byte count of 248
or more, and at most seven bytes are left. -/
def Obligations.OversizedRequestOverflows : Prop :=
  (∀ (s : State) (i : Instr) (es : List Event),
    i.wf = true → i.fits s.cfg = false → s.rxBuf = [] →
      s.inputs = ((encode s.cfg.slaveAddr i).take (s.cfg.frameBufSize + 1)).map Event.rxByte ++ es →
        Host.Core.run Sys2Proof.core (s.cfg.frameBufSize + 1) s = .next { s with inputs := es }) ∧
    (∀ (s : State) (i : Instr) (es : List Event),
      i.wf = true → i.fits s.cfg = false → i.frameLen ≤ s.cfg.frameBufSize + 8 → s.rxBuf = [] →
        s.inputs = (encode s.cfg.slaveAddr i).map Event.rxByte ++ es →
          Host.Core.run Sys2Proof.core i.frameLen s =
            .next { s with rxBuf := (encode s.cfg.slaveAddr i).drop (s.cfg.frameBufSize + 1), inputs := es }) ∧
    ∀ (p : Params) (addr qty : Word) (bc : Byte) (data : List Byte), p.frameBufSize = 256 →
      ((Instr.wmr addr qty bc data).fits p = false ↔ 248 ≤ bc.toNat) ∧
        (Instr.wmr addr qty bc data).frameLen ≤ p.frameBufSize + 8

/-! ## Protocol engine -/

/-- Rule R171: a completed frame whose byte 0 is not SLAVE_ADDR gets no response and writes nothing, whatever its
CRC and its code; SLAVE_ADDR is never 0. -/
def Obligations.OtherSlaveIsDropped : Prop :=
  (∀ (s : State) (b : Byte) (es : List Event),
    s.inputs = .rxByte b :: es → s.rxBuf.length < s.cfg.frameBufSize →
      expectedLen (s.rxBuf ++ [b]) = some (s.rxBuf.length + 1) →
        (s.rxBuf ++ [b]).head? ≠ some s.cfg.slaveAddr →
          step s = .next { s with rxBuf := [], inputs := es }) ∧
    ∀ p : Params, p.slaveAddr ≠ 0

/-- Rule R172: a completed frame whose last two bytes are not the CRC of the others is silently discarded. -/
def Obligations.BadCrcIsDropped : Prop :=
  ∀ (s : State) (b : Byte) (es : List Event) (c : List Byte) (lo : Byte),
    s.inputs = .rxByte b :: es → s.rxBuf.length < s.cfg.frameBufSize →
      expectedLen (s.rxBuf ++ [b]) = some (s.rxBuf.length + 1) →
        s.rxBuf = c ++ [lo] → (crc16 c).toNat ≠ lo.toNat + 256 * b.toNat →
          step s = .next { s with rxBuf := [], inputs := es }

/-- Rules R174 and R175: every frame that passes the two checks is answered by exactly one response, with byte 0
SLAVE_ADDR and a fresh CRC; no other step transmits anything. That a Reset event, too, leaves the record of what was
sent is the model's choice (log entry 6). -/
def Obligations.ExactlyOneResponse : Prop :=
  (∀ (i : Instr) (s t : State), exec i s = .next t → ∃ body, Responds (s.cfg.slaveAddr :: body) s t) ∧
    (∀ (s : State) (b : Byte) (es : List Event) (i : Instr),
      s.inputs = .rxByte b :: es → s.rxBuf.length < s.cfg.frameBufSize →
        decode s.cfg.slaveAddr (s.rxBuf ++ [b]) = .ok i →
          ∃ t body, step s = .next t ∧ Responds (s.cfg.slaveAddr :: body) s t) ∧
    ∀ s t : State, step s = .next t →
      (∀ b es i, s.inputs = .rxByte b :: es → s.rxBuf.length < s.cfg.frameBufSize →
        decode s.cfg.slaveAddr (s.rxBuf ++ [b]) ≠ .ok i) →
        t.txLog = s.txLog ∧ t.txCount = s.txCount

/-- Rules R342 and R343, with R124 and R125: a request with a cause in the table transmits the exception response of
its code, and nothing else changes; a request without one gets a normal response, whose code has its high bit clear;
the rule's example. -/
def Obligations.ExceptionResponses : Prop :=
  (∀ (i : Instr) (s : State),
    (∀ code, exceptionOf s.cfg i = some code →
        exec i s = .next (s.logTx (withCrc [s.cfg.slaveAddr, i.code ||| 0x80, code]))) ∧
      (exceptionOf s.cfg i = none →
        ∃ t body, exec i s = .next t ∧ Responds (s.cfg.slaveAddr :: i.code :: body) s t ∧ i.code.getLsbD 7 = false)) ∧
    withCrc [0x01, 0x03 ||| 0x80, 0x02] = [0x01, 0x83, 0x02, 0xC0, 0xF1]

/-- Rule R341: whatever a request transmits with the high bit of its code set carries the code 0x01 or 0x02. -/
def Obligations.OnlyTwoExceptionCodes : Prop :=
  ∀ (i : Instr) (s t : State) (slave fc code : Byte),
    exec i s = .next t → Responds [slave, fc, code] s t → fc.getLsbD 7 = true → code = 0x01 ∨ code = 0x02

/-- Rule R93 with rule R340: every request completes, in every state; no access of it is out of range. -/
def Obligations.EveryRequestCompletes : Prop :=
  ∀ (i : Instr) (s : State), ∃ t, exec i s = .next t

/-- No event stops SMCORE, but for line silence in an instance that has none (log entry 7). -/
def Obligations.NoEventStopsTheMachine : Prop :=
  ∀ s : State, (∃ t, step s = .next t) ∨
    (s.cfg.silenceReset = false ∧ (∃ es, s.inputs = .rxSilence :: es) ∧ step s = .refused .noSilenceTimer)

/-- Rule R177: a request changes the holding registers, the latch and the transmit port, and nothing else; and it
reads nothing of the monitor's state: with any other monitor state it does the same. -/
def Obligations.RequestIgnoresMonitorState : Prop :=
  ∀ (i : Instr) (s t : State), exec i s = .next t →
    RequestFrame s t ∧
      ∀ (ai : Vector AnalogChannel 4) (di : Vector DigitalChannel 4) (st : Status) (estop relay ind : Bool)
        (check warn crit emerg : Word32),
        exec i { s with
          ai := ai, di := di, sysStatus := st, estop := estop, lastCheck := check, warnCount := warn,
          critCount := crit, emergCount := emerg, relayOut := relay, indOut := ind } =
          .next { t with
            ai := ai, di := di, sysStatus := st, estop := estop, lastCheck := check, warnCount := warn,
            critCount := crit, emergCount := emerg, relayOut := relay, indOut := ind }

/-- Rule R179: the transmit outcomes change no state; whichever are drawn, a request leaves the same state and has
sent the same bytes. -/
def Obligations.TransmitOutcomeChangesNothing : Prop :=
  ∀ (i : Instr) (s t : State) (n : Nat), exec i s = .next t →
    ∃ u, exec i { s with txCount := n } = .next u ∧
      u = { t with txLog := u.txLog, txCount := u.txCount } ∧
        u.txLog.map TxRecord.sent = t.txLog.map TxRecord.sent

/-! ## Requests -/

/-- Rule R200: the frame of 0x03; it answers the registers, or exception 0x02 when the exact sum passes the end or
the quantity is above MAX_READ_QTY; the rule's example. Nothing but the transmit port changes. -/
def Obligations.ReadHoldingRegisters : Prop :=
  (∀ (slave : Byte) (addr qty : Word),
    decode slave (withCrc [slave, 0x03, hi8 addr, lo8 addr, hi8 qty, lo8 qty]) = .ok (.rhr addr qty)) ∧
  (∀ (s : State) (addr qty : Word),
    (s.cfg.holdingRegCount < addr.toNat + qty.toNat ∨ s.cfg.maxReadQty < qty.toNat →
        exec (.rhr addr qty) s = .next (s.logTx (withCrc [s.cfg.slaveAddr, 0x83, 0x02]))) ∧
      (addr.toNat + qty.toNat ≤ s.cfg.holdingRegCount → qty.toNat ≤ s.cfg.maxReadQty →
        exec (.rhr addr qty) s =
          .next (s.logTx (withCrc ([s.cfg.slaveAddr, 0x03, BitVec.ofNat 8 (2 * qty.toNat)] ++
            (List.range qty.toNat).flatMap fun k =>
              [hi8 (s.hrGet (addr.toNat + k)), lo8 (s.hrGet (addr.toNat + k))]))))) ∧
    exec (.rhr 0x0044 2) State.reset =
      .next (State.reset.logTx [0x01, 0x03, 0x04, 0x01, 0xF4, 0x03, 0xE8, 0xBA, 0x83])

/-- Rule R201: the frame of 0x04; it does the same over the input registers, a space of its own. While no input
register has been written (the invariant `unwrittenSpaces`), every value returned is INPUT_REG_INIT(addr + k). -/
def Obligations.ReadInputRegisters : Prop :=
  (∀ (slave : Byte) (addr qty : Word),
    decode slave (withCrc [slave, 0x04, hi8 addr, lo8 addr, hi8 qty, lo8 qty]) = .ok (.rir addr qty)) ∧
  (∀ (s : State) (addr qty : Word),
    (s.cfg.inputRegCount < addr.toNat + qty.toNat ∨ s.cfg.maxReadQty < qty.toNat →
        exec (.rir addr qty) s = .next (s.logTx (withCrc [s.cfg.slaveAddr, 0x84, 0x02]))) ∧
      (addr.toNat + qty.toNat ≤ s.cfg.inputRegCount → qty.toNat ≤ s.cfg.maxReadQty →
        exec (.rir addr qty) s =
          .next (s.logTx (withCrc ([s.cfg.slaveAddr, 0x04, BitVec.ofNat 8 (2 * qty.toNat)] ++
            (List.range qty.toNat).flatMap fun k =>
              [hi8 (s.irGet (addr.toNat + k)), lo8 (s.irGet (addr.toNat + k))]))) ∧
        (s.unwrittenSpaces →
          exec (.rir addr qty) s =
            .next (s.logTx (withCrc ([s.cfg.slaveAddr, 0x04, BitVec.ofNat 8 (2 * qty.toNat)] ++
              (List.range qty.toNat).flatMap fun k =>
                [hi8 (s.cfg.inputRegInit (addr.toNat + k)), lo8 (s.cfg.inputRegInit (addr.toNat + k))])))))) ∧
    exec (.rir 0x0000 1) State.reset = .next (State.reset.logTx [0x01, 0x04, 0x02, 0x00, 0x00, 0xB9, 0x30])

/-- Rule R220: the frame of 0x06; beyond the space it raises 0x02; inside it, it stores the value, echoes, and with
the value 1 at RESET_ERROR_CMD also clears SYS_ERROR and the latch; everything else, the outputs included, stays. -/
def Obligations.WriteSingleRegister : Prop :=
  (∀ (slave : Byte) (addr value : Word),
    decode slave (withCrc [slave, 0x06, hi8 addr, lo8 addr, hi8 value, lo8 value]) = .ok (.wsr addr value)) ∧
  (∀ (s : State) (addr value : Word),
    (s.cfg.holdingRegCount ≤ addr.toNat →
        exec (.wsr addr value) s = .next (s.logTx (withCrc [s.cfg.slaveAddr, 0x86, 0x02]))) ∧
      (addr.toNat < s.cfg.holdingRegCount →
        ∃ t, exec (.wsr addr value) s = .next t ∧ RequestFrame s t ∧
          Responds [s.cfg.slaveAddr, 0x06, hi8 addr, lo8 addr, hi8 value, lo8 value] s t ∧
          t.hrGet addr.toNat = value ∧
          (addr.toNat = 0x109 ∧ value = 1 → t.hrGet 0x108 = 0 ∧ t.resetRequired = false) ∧
          (¬ (addr.toNat = 0x109 ∧ value = 1) → t.resetRequired = s.resetRequired) ∧
          ∀ x, x ≠ addr.toNat → ¬ (x = 0x108 ∧ addr.toNat = 0x109 ∧ value = 1) → t.hrGet x = s.hrGet x)) ∧
    ∃ t, exec (.wsr 0x0044 500) State.reset = .next t ∧ t.hrGet 0x44 = 500 ∧
      t.txLog.map TxRecord.sent = [[0x01, 0x06, 0x00, 0x44, 0x01, 0xF4, 0xC9, 0xC8]]

/-- Rules R221 and R223: the frame of 0x10; one whose range passes the end or whose byte count is not twice its
quantity raises 0x02 and writes nothing; any other one stores its words in ascending order, so that SYS_ERROR is 0
whenever the request gives the reset-error command, whatever it wrote to SYS_ERROR; every other register stays. -/
def Obligations.WriteMultipleRegisters : Prop :=
  (∀ (slave : Byte) (addr qty : Word) (bc : Byte) (data : List Byte), data.length = bc.toNat →
    decode slave (withCrc ([slave, 0x10, hi8 addr, lo8 addr, hi8 qty, lo8 qty, bc] ++ data)) =
      .ok (.wmr addr qty bc data)) ∧
  (∀ (s : State) (addr qty : Word) (bc : Byte) (data : List Byte), (Instr.wmr addr qty bc data).wf = true →
    (s.cfg.holdingRegCount < addr.toNat + qty.toNat ∨ bc.toNat ≠ 2 * qty.toNat →
        exec (.wmr addr qty bc data) s = .next (s.logTx (withCrc [s.cfg.slaveAddr, 0x90, 0x02]))) ∧
      (addr.toNat + qty.toNat ≤ s.cfg.holdingRegCount → bc.toNat = 2 * qty.toNat →
        ∃ t, exec (.wmr addr qty bc data) s = .next t ∧ RequestFrame s t ∧
          Responds [s.cfg.slaveAddr, 0x10, hi8 addr, lo8 addr, hi8 qty, lo8 qty] s t ∧
          (∀ k, k < qty.toNat →
            (addr.toNat + k = 0x108 → ¬ (Instr.wmr addr qty bc data).givesResetError) →
              ∀ h l, data[2 * k]? = some h → data[2 * k + 1]? = some l →
                (t.hrGet (addr.toNat + k)).toNat = h.toNat * 256 + l.toNat) ∧
          ((Instr.wmr addr qty bc data).givesResetError → t.hrGet 0x108 = 0 ∧ t.resetRequired = false) ∧
          (¬ (Instr.wmr addr qty bc data).givesResetError → t.resetRequired = s.resetRequired) ∧
          ∀ x, x < addr.toNat ∨ addr.toNat + qty.toNat ≤ x →
            (x = 0x108 → ¬ (Instr.wmr addr qty bc data).givesResetError) → t.hrGet x = s.hrGet x)) ∧
    ∃ t, exec (.wmr 0x0044 2 4 [0x01, 0xF4, 0x03, 0xE8]) State.reset = .next t ∧
      t.hrGet 0x44 = 500 ∧ t.hrGet 0x45 = 1000 ∧
        t.txLog.map TxRecord.sent = [[0x01, 0x10, 0x00, 0x44, 0x00, 0x02, 0x01, 0xDD]]

/-- Rule R250: the frame of any other function code; it gets exception 0x01, with nothing written; the rule's
example. -/
def Obligations.IllegalFunctionCode : Prop :=
  (∀ slave fc b2 b3 b4 b5 : Byte, fc ≠ 0x03 → fc ≠ 0x04 → fc ≠ 0x06 → fc ≠ 0x10 →
    decode slave (withCrc [slave, fc, b2, b3, b4, b5]) = .ok (.illegal fc b2 b3 b4 b5)) ∧
  (∀ (s : State) (fc b2 b3 b4 b5 : Byte),
    exec (.illegal fc b2 b3 b4 b5) s = .next (s.logTx (withCrc [s.cfg.slaveAddr, fc ||| 0x80, 0x01]))) ∧
    exec (.illegal 0x01 0x00 0x00 0x00 0x01) State.reset = .next (State.reset.logTx [0x01, 0x81, 0x01, 0x81, 0x90])

/-- Rule R222: the write path stores the value, and for the value 1 at 0x0109 also clears 0x0108 and the latch; it
changes no other register and nothing else, so 0x0109 keeps its 1 and the outputs stay. -/
def Obligations.WritePathSideEffect : Prop :=
  ∀ (s : State) (a : Nat) (v : Word), a < s.cfg.holdingRegCount →
    ∃ t, hrWrite a v s = .ok t ∧ t = { s with hr := t.hr, resetRequired := t.resetRequired } ∧ t.hrGet a = v ∧
      (a = 0x109 ∧ v = 1 → t.hrGet 0x108 = 0 ∧ t.resetRequired = false) ∧
      (¬ (a = 0x109 ∧ v = 1) → t.resetRequired = s.resetRequired) ∧
      ∀ x, x ≠ a → ¬ (x = 0x108 ∧ a = 0x109 ∧ v = 1) → t.hrGet x = s.hrGet x

/-- Rule R224: after a request that wrote a register, a read of it answers the value written, in the state the write
left and in every later one whose register still reads so, unless the register is SYS_ERROR and the request's
reset-error command cleared it. Along any run in which no request is executed (nothing is sent) and no reset comes,
the register does still read so, unless a cycle comes and publishes it. -/
def Obligations.WriteThenReadRoundTrip : Prop :=
  (∀ (s t u : State) (addr value : Word),
    addr.toNat < s.cfg.holdingRegCount → exec (.wsr addr value) s = .next t →
      u.cfg = t.cfg → u.hrGet addr.toNat = t.hrGet addr.toNat →
        exec (.rhr addr 1) u = .next (u.logTx (withCrc [s.cfg.slaveAddr, 0x03, 0x02, hi8 value, lo8 value]))) ∧
    (∀ (s t u : State) (addr qty a : Word) (bc h l : Byte) (data : List Byte) (k : Nat),
      addr.toNat + qty.toNat ≤ s.cfg.holdingRegCount → bc.toNat = 2 * qty.toNat → k < qty.toNat →
        a.toNat = addr.toNat + k → data[2 * k]? = some h → data[2 * k + 1]? = some l →
          (a.toNat = 0x108 → ¬ (Instr.wmr addr qty bc data).givesResetError) →
            exec (.wmr addr qty bc data) s = .next t → u.cfg = t.cfg → u.hrGet a.toNat = t.hrGet a.toNat →
              exec (.rhr a 1) u = .next (u.logTx (withCrc [s.cfg.slaveAddr, 0x03, 0x02, h, l]))) ∧
    ∀ (t u : State) (a n : Nat),
      Event.reset ∉ t.inputs → (¬ t.publishes a ∨ ∀ x y, Event.cycle x y ∉ t.inputs) →
        Host.Core.run Sys2Proof.core n t = .next u → u.txLog = t.txLog →
          u.cfg = t.cfg ∧ u.hrGet a = t.hrGet a

/-- Rule R100: a repeated write request is answered alike and leaves every register and the latch as the first one
left them. -/
def Obligations.WritesAreIdempotent : Prop :=
  ∀ (i : Instr) (s t u : State), exec i s = .next t → exec i t = .next u →
    u = { t with txLog := u.txLog, txCount := u.txCount, hr := u.hr } ∧ (∀ x, u.hrGet x = t.hrGet x) ∧
      (i.code = 0x06 ∨ i.code = 0x10 → ∃ f, t.txLog.map TxRecord.sent = s.txLog.map TxRecord.sent ++ [f] ∧
        u.txLog.map TxRecord.sent = t.txLog.map TxRecord.sent ++ [f])

/-! ## Safety monitor -/

/-- Rule R267: the first test of the chain that holds decides, and the rule's three boundary values. -/
def Obligations.ClassificationChain : Prop :=
  (∀ (s : State) (d : Dist),
    (d.num = 0 → s.classifyDist d = (.error, 0x01)) ∧
      (d.num ≠ 0 →
        (d.num ≤ (s.hrGet 0x44).toNat * (d.denPred + 1) → s.classifyDist d = (.critical, 0x02)) ∧
        ((s.hrGet 0x44).toNat * (d.denPred + 1) < d.num →
          (d.num ≤ (s.hrGet 0x45).toNat * (d.denPred + 1) → s.classifyDist d = (.warning, 0x04)) ∧
          ((s.hrGet 0x45).toNat * (d.denPred + 1) < d.num →
            (d.num ≤ (s.hrGet 0x46).toNat * (d.denPred + 1) → s.classifyDist d = (.warning, 0x08)) ∧
            ((s.hrGet 0x46).toNat * (d.denPred + 1) < d.num →
              (d.num ≤ (s.hrGet 0x47).toNat * (d.denPred + 1) → s.classifyDist d = (.ok, 0x10)) ∧
              ((s.hrGet 0x47).toNat * (d.denPred + 1) < d.num → s.classifyDist d = (.ok, 0x00))))))) ∧
    classify 500 1000 1500 2000 ⟨500, 0⟩ = (.critical, 0x02) ∧
    classify 500 1000 1500 2000 ⟨500001, 999⟩ = (.warning, 0x04) ∧
    classify 500 1000 1500 2000 ⟨2000001, 999⟩ = (.ok, 0x00)

/-- A greater distance is classified no earlier in the chain of rule R267, for thresholds in any order, and past 0 it
is never more severe by the precedence of rule R285 (0 itself is ERROR, which CRITICAL and WARNING precede). By rule
R401 a band whose threshold is not above the one before it is never reached. -/
def Obligations.FartherIsNeverMoreSevere : Prop :=
  (∀ (z1 z2 z3 z4 : Word) (d d' : Dist), Dist.leDist d d' →
    zoneRank (classify z1 z2 z3 z4 d) ≤ zoneRank (classify z1 z2 z3 z4 d') ∧
      (d.num ≠ 0 →
        precedence [(classify z1 z2 z3 z4 d).1, (classify z1 z2 z3 z4 d').1] = (classify z1 z2 z3 z4 d).1)) ∧
    ∀ (z1 z2 z3 z4 : Word) (d : Dist),
      (z2.toNat ≤ z1.toNat → classify z1 z2 z3 z4 d ≠ (.warning, 0x04)) ∧
        (z3.toNat ≤ z2.toNat → classify z1 z2 z3 z4 d ≠ (.warning, 0x08)) ∧
          (z4.toNat ≤ z3.toNat → classify z1 z2 z3 z4 d ≠ (.ok, 0x10))

/-- Rules R268 and R269: an ERROR reading counts an error and keeps the last good reading and its register; a good
reading is kept, published and entered into the statistics. -/
def Obligations.AnalogReadingIsRecorded : Prop :=
  ∀ (s : State) (i : Fin 4) (raw : Raw12) (d : Dist),
    let z := s.classifyDist d
    let t := analogReading i raw d s
    let mv := raw.toNat * s.cfg.vRefMv / 4096
    t = { s with hr := t.hr, ai := t.ai } ∧ (∀ j : Fin 4, j ≠ i → t.ai[j] = s.ai[j]) ∧
      t.ai[i].raw = raw ∧ t.ai[i].status = z.1 ∧ t.ai[i].flags = z.2 ∧
      (z.1 = .error →
        t.ai[i].errors = s.ai[i].errors + 1 ∧ t.ai[i].dist = s.ai[i].dist ∧ t.ai[i].mv = s.ai[i].mv ∧
          t.ai[i].minMv = s.ai[i].minMv ∧ t.ai[i].maxMv = s.ai[i].maxMv ∧ ∀ x, t.hrGet x = s.hrGet x) ∧
      (z.1 ≠ .error →
        t.ai[i].errors = s.ai[i].errors ∧ t.ai[i].dist = d ∧ t.ai[i].mv.toNat = mv ∧
          t.ai[i].minMv.toNat = min s.ai[i].minMv.toNat mv ∧ t.ai[i].maxMv.toNat = max s.ai[i].maxMv.toNat mv ∧
            (t.hrGet (0x10 + i.val)).toNat = mv ∧ ∀ x, x ≠ 0x10 + i.val → t.hrGet x = s.hrGet x)

/-- Rules R262, R264, R265 and R270: a disabled analog channel is left alone; an enabled one is read with distance 0
when the sample is inactive, else with DIST_FN at the shared gain and offset. -/
def Obligations.AnalogStepReadsEnabledChannel : Prop :=
  ∀ (s : State) (i : Fin 4) (raw : Raw12),
    (s.hrGet (0x1A + i.val) = 0 → analogStep i raw s = s) ∧
      (s.hrGet (0x1A + i.val) ≠ 0 →
        (raw.toNat * s.cfg.vRefMv < 409600 → analogStep i raw s = analogReading i raw ⟨0, 0⟩ s) ∧
          (409600 ≤ raw.toNat * s.cfg.vRefMv →
            analogStep i raw s = analogReading i raw (Config.distFn s.cfg raw (s.hrGet 0x14) (s.hrGet 0x15)) s))

/-- Rule R266: the processed value is the floor of raw * V_REF_MV / 4096 and fits 16 bits in every instance; and
the rule's three values at V_REF_MV = 3300. -/
def Obligations.MillivoltsFitTheRegister : Prop :=
  (∀ (p : Params) (raw : Raw12),
    (millivolts p raw).toNat = raw.toNat * p.vRefMv / 4096 ∧ (millivolts p raw).toNat ≤ 65520) ∧
    ∀ p : Params, p.vRefMv = 3300 →
      millivolts p 4095 = 3299 ∧ millivolts p 2048 = 1650 ∧ millivolts p 125 = 100

/-- Rules R275 to R280: a disabled digital channel is left alone; an enabled one records its level and its last raw
edge, commits a changed active comparison only after it persisted longer than the debounce interval, and publishes
the debounced state. -/
def Obligations.DigitalStepDebounces : Prop :=
  ∀ (s : State) (i : Fin 4) (lvl : Bool) (now : Word32),
    (s.hrGet (0x26 + i.val) = 0 → digitalStep i lvl now s = s) ∧
      (s.hrGet (0x26 + i.val) ≠ 0 →
        let t := digitalStep i lvl now s
        let act : Bool := lvl == decide (s.hrGet (0x2A + i.val) ≠ 0)
        let elapsed := (now.toNat + 2 ^ 32 - t.di[i].edgeTime.toNat) % 2 ^ 32
        t = { s with hr := t.hr, di := t.di } ∧ (∀ j : Fin 4, j ≠ i → t.di[j] = s.di[j]) ∧
          t.di[i].level = lvl ∧ t.di[i].prevLevel = lvl ∧ t.di[i].errors = s.di[i].errors ∧
          (lvl ≠ s.di[i].prevLevel → t.di[i].edgeTime = now) ∧
          (lvl = s.di[i].prevLevel → t.di[i].edgeTime = s.di[i].edgeTime) ∧
          (act ≠ s.di[i].active ∧ s.cfg.debounceMs[i].toNat < elapsed →
            t.di[i].active = act ∧ t.di[i].changes = s.di[i].changes + 1 ∧ t.di[i].commitTime = now) ∧
          (¬ (act ≠ s.di[i].active ∧ s.cfg.debounceMs[i].toNat < elapsed) →
            t.di[i].active = s.di[i].active ∧ t.di[i].changes = s.di[i].changes ∧
              t.di[i].commitTime = s.di[i].commitTime) ∧
          t.di[i].flags = (if t.di[i].active then 0x02 else 0x00) ∧
          t.hrGet (0x22 + i.val) = (if t.di[i].active then 1 else 0) ∧
          ∀ x, x ≠ 0x22 + i.val → t.hrGet x = s.hrGet x)

/-- A raw flip that has not persisted beyond the interval is not counted: from the sample that sees the edge on,
samples within the interval leave the debounced state and its change counter alone. -/
def Obligations.ShortFlipIsNotCounted : Prop :=
  ∀ (c : DigitalChannel) (lvl act : Bool) (edge interval : Word32) (times : List Word32),
    lvl ≠ c.prevLevel → (∀ now ∈ times, (now - edge).toNat ≤ interval.toNat) →
      let c' := times.foldl (fun c now => c.sample lvl act now interval) (c.sample lvl act edge interval)
      c'.active = c.active ∧ c'.changes = c.changes ∧ c'.edgeTime = edge

/-- A raw flip that persists beyond the interval is counted exactly once, however many samples follow. -/
def Obligations.PersistentFlipCountsOnce : Prop :=
  ∀ (c : DigitalChannel) (lvl act : Bool) (now interval : Word32) (times : List Word32),
    lvl = c.prevLevel → act ≠ c.active → interval.toNat < (now - c.edgeTime).toNat →
      let c' := times.foldl (fun c now => c.sample lvl act now interval) (c.sample lvl act now interval)
      c'.active = act ∧ c'.changes = c.changes + 1 ∧ c'.commitTime = now

/-- Rules R285, R287 and R288: the aggregate of any state is the first of CRITICAL, WARNING, ERROR that some enabled
channel has, else OK; a cycle completes with the aggregate of the channels it leaves, increments the counter of that
status and no other, and notes the aggregate and the time. -/
def Obligations.CycleAggregatesAndCounts : Prop :=
  (∀ s : State,
    (s.someCritical → s.aggregate = .critical) ∧
      (¬ s.someCritical → s.someAnalog .warning → s.aggregate = .warning) ∧
      (¬ s.someCritical → ¬ s.someAnalog .warning → s.someAnalog .error → s.aggregate = .error) ∧
      (¬ s.someCritical → ¬ s.someAnalog .warning → ¬ s.someAnalog .error → s.aggregate = .ok)) ∧
    ∀ (s : State) (a : Vector Raw12 4) (d : Vector Bool 4) (es : List Event), s.inputs = .cycle a d :: es →
      ∃ t, step s = .next t ∧ t.sysStatus = t.aggregate ∧
        t.warnCount = (if t.sysStatus = .warning then s.warnCount + 1 else s.warnCount) ∧
        t.critCount = (if t.sysStatus = .critical then s.critCount + 1 else s.critCount) ∧
        t.emergCount = (if t.sysStatus = .emergency then s.emergCount + 1 else s.emergCount) ∧
        t.lastCheck = s.uptimeMs

/-- Every channel is stepped from the configuration at the start of the cycle, whatever the other channels do
(rules R260 and R261). -/
def Obligations.CycleStepsEveryChannelFromItsStart : Prop :=
  ∀ (s : State) (a : Vector Raw12 4) (d : Vector Bool 4) (es : List Event), s.inputs = .cycle a d :: es →
    ∃ t, step s = .next t ∧
      (∀ i : Fin 4, t.ai[i] = (analogStep i a[i] s).ai[i] ∧
        t.hrGet (0x10 + i.val) = (analogStep i a[i] s).hrGet (0x10 + i.val)) ∧
      ∀ i : Fin 4, t.di[i] = (digitalStep i d[i] s.uptimeMs s).di[i] ∧
        t.hrGet (0x22 + i.val) = (digitalStep i d[i] s.uptimeMs s).hrGet (0x22 + i.val)

/-- Rules R301, R302 and R303: what a cycle's aggregate does to the relay, the indicator and the latch. -/
def Obligations.CycleDrivesOutputs : Prop :=
  ∀ (s : State) (a : Vector Raw12 4) (d : Vector Bool 4) (es : List Event), s.inputs = .cycle a d :: es →
    ∃ t, step s = .next t ∧
      (t.sysStatus = .critical → t.relayOut = true ∧ t.indOut = true ∧ t.resetRequired = true) ∧
      (t.sysStatus = .ok → s.hrGet 0x4A ≠ 0 → t.resetRequired = false ∧ t.relayOut = false ∧ t.indOut = false) ∧
      (t.sysStatus = .ok → s.hrGet 0x4A = 0 → s.resetRequired = true →
        t.resetRequired = true ∧ t.relayOut = s.relayOut ∧ t.indOut = s.indOut) ∧
      (t.sysStatus = .ok → s.resetRequired = false →
        t.resetRequired = false ∧ t.relayOut = false ∧ t.indOut = false) ∧
      (t.sysStatus ≠ .critical → t.sysStatus ≠ .ok →
        t.relayOut = s.relayOut ∧ t.indOut = s.indOut ∧ t.resetRequired = s.resetRequired)

/-- Rules R321 to R324, with the status register of rule R320 and its codes (R60): what a cycle publishes at 0x0000 and
0x0002 to 0x0005, in terms of the state it leaves. -/
def Obligations.CyclePublishesResults : Prop :=
  ∀ (s : State) (a : Vector Raw12 4) (d : Vector Bool 4) (es : List Event), s.inputs = .cycle a d :: es →
    ∃ t, step s = .next t ∧
      t.hrGet 0x0 =
        (match t.sysStatus with
          | .ok => 0
          | .warning => 1
          | .critical => 2
          | .emergency => 3
          | .error => 4) ∧
      (∀ b : Nat, (t.hrGet 0x2).getLsbD b = true ↔
        ∃ i : Fin 4, s.hrGet (0x1A + i.val) ≠ 0 ∧ t.ai[i].flags.getLsbD b = true) ∧
      (t.hrGet 0x3 = 1 ∨ t.hrGet 0x3 = 0) ∧
      (t.hrGet 0x3 = 1 ↔ ∃ i : Fin 4, s.hrGet (0x1A + i.val) ≠ 0 ∧ t.ai[i].status ≠ .error ∧
        t.ai[i].dist.num ≤ (s.hrGet 0x48).toNat * (t.ai[i].dist.denPred + 1)) ∧
      t.hrGet 0x4 = (if t.relayOut then 1 else 0) ∧
      (∀ b : Nat, (t.hrGet 0x5).getLsbD b = true ↔
        ∃ i : Fin 4, i.val = b ∧ s.hrGet (0x1A + i.val) ≠ 0 ∧ t.ai[i].status = .error)

/-- Rules R320 and R332: a cycle writes no register but the published ones, and neither the receiver, nor the other
spaces, nor the time base, nor the transmit port. -/
def Obligations.CycleFrameHolds : Prop :=
  ∀ (s : State) (a : Vector Raw12 4) (d : Vector Bool 4) (es : List Event), s.inputs = .cycle a d :: es →
    ∃ t, step s = .next t ∧
      (∀ x, x ∉ publishedAddrs → t.hrGet x = s.hrGet x) ∧
      (∀ i : Fin 4, s.hrGet (0x1A + i.val) = 0 →
        t.ai[i] = s.ai[i] ∧ t.hrGet (0x10 + i.val) = s.hrGet (0x10 + i.val)) ∧
      (∀ i : Fin 4, s.hrGet (0x26 + i.val) = 0 →
        t.di[i] = s.di[i] ∧ t.hrGet (0x22 + i.val) = s.hrGet (0x22 + i.val)) ∧
      t = { s with
        hr := t.hr, ai := t.ai, di := t.di, sysStatus := t.sysStatus, lastCheck := t.lastCheck,
        warnCount := t.warnCount, critCount := t.critCount, emergCount := t.emergCount,
        resetRequired := t.resetRequired, relayOut := t.relayOut, indOut := t.indOut, inputs := es }

/-! ## Timer, reset, order -/

/-- Rule R357: a millisecond tick advances `uptime_ms` modulo 2^32 and changes nothing else. -/
def Obligations.TickAdvancesUptime : Prop :=
  ∀ (s : State) (es : List Event), s.inputs = .msTick :: es →
    ∃ t, step s = .next t ∧ t = { s with uptimeMs := t.uptimeMs, inputs := es } ∧
      t.uptimeMs.toNat = (s.uptimeMs.toNat + 1) % 2 ^ 32

/-- Rule R355: no event but a tick and a reset changes `uptime_ms`. -/
def Obligations.OnlyTickAndResetChangeUptime : Prop :=
  ∀ s t : State, step s = .next t → t.uptimeMs ≠ s.uptimeMs →
    (∃ es, s.inputs = .msTick :: es) ∨ ∃ es, s.inputs = .reset :: es

/-- Rules R380 and R381: a reset event gives every piece of state its reset value and keeps the parameters. That
the ports' record and the events still to come stay is the model's choice (log entry 6). -/
def Obligations.ResetEventRestoresEverything : Prop :=
  ∀ (s : State) (es : List Event), s.inputs = .reset :: es →
    ∃ t, step s = .next t ∧
      t = { State.resetOf s.cfg with inputs := es, txLog := s.txLog, txCount := s.txCount } ∧
      (∀ c ∈ [(0x14, 2786), (0x15, 115), (0x44, 500), (0x45, 1000), (0x46, 1500), (0x47, 2000), (0x48, 100),
          (0x49, 50), (0x4B, (1 : Word))], t.hrGet c.1 = c.2) ∧
      (∀ k : Fin 10, t.hrGet (0x100 + k.val) = s.cfg.deviceDefaults[k]) ∧
      (∀ a, a ∉ [0x14, 0x15, 0x44, 0x45, 0x46, 0x47, 0x48, 0x49, 0x4B] → a < 0x100 ∨ 0x109 < a → t.hrGet a = 0) ∧
      (∀ a, t.irGet a = s.cfg.inputRegInit a) ∧ (∀ a, t.coilGet a = false) ∧ (∀ a, t.discInGet a = false) ∧
      (∀ i : Fin 4, t.ai[i].raw = 0 ∧ t.ai[i].status = .ok ∧ t.ai[i].flags = 0 ∧ t.ai[i].dist.num = 0 ∧
        t.ai[i].mv = 0 ∧ t.ai[i].minMv = 0xFFFF ∧ t.ai[i].maxMv = 0 ∧ t.ai[i].errors = 0) ∧
      (∀ i : Fin 4, t.di[i].level = false ∧ t.di[i].prevLevel = false ∧ t.di[i].edgeTime = 0 ∧
        t.di[i].active = false ∧ t.di[i].changes = 0 ∧ t.di[i].commitTime = 0 ∧ t.di[i].errors = 0 ∧
        t.di[i].flags = 0) ∧
      t.sysStatus = .ok ∧ t.estop = false ∧ t.lastCheck = 0 ∧ t.warnCount = 0 ∧ t.critCount = 0 ∧
      t.emergCount = 0 ∧ t.resetRequired = false ∧
      t.rxBuf = [] ∧ t.relayOut = false ∧ t.indOut = false ∧ t.uptimeMs = 0

/-- Rule R383: the state after reset as a master sees it, in every instance, and the first cycle after it. -/
def Obligations.ResetAsTheMasterSeesIt : Prop :=
  ∀ p : Params,
    (∀ x ∈ [0x0, 0x1, 0x2, 0x3, 0x4, 0x5, 0x10, 0x11, 0x12, 0x13, 0x22, 0x23, 0x24, 0x25, 0x1A, 0x1B, 0x1C, 0x1D,
        0x26, 0x27, 0x28, 0x29, 0x2A, 0x2B, 0x2C, 0x2D, 0x4A], (State.resetOf p).hrGet x = 0) ∧
      (State.resetOf p).hrGet 0x14 = 2786 ∧ (State.resetOf p).hrGet 0x15 = 115 ∧
      (State.resetOf p).hrGet 0x44 = 500 ∧ (State.resetOf p).hrGet 0x45 = 1000 ∧
      (State.resetOf p).hrGet 0x46 = 1500 ∧ (State.resetOf p).hrGet 0x47 = 2000 ∧
      (State.resetOf p).hrGet 0x48 = 100 ∧ (State.resetOf p).hrGet 0x49 = 50 ∧ (State.resetOf p).hrGet 0x4B = 1 ∧
      (∀ k : Fin 10, (State.resetOf p).hrGet (0x100 + k.val) = p.deviceDefaults[k]) ∧
      (State.resetOf p).relayOut = false ∧ (State.resetOf p).indOut = false ∧
      ∀ (a : Vector Raw12 4) (d : Vector Bool 4),
        (runCycle a d (State.resetOf p)).sysStatus = .ok ∧
          ∀ x ∈ [0x0, 0x2, 0x3, 0x4, 0x5], (runCycle a d (State.resetOf p)).hrGet x = 0

/-- The protocol agent's and the timer's events leave the monitor's state alone, but for the latch, which a completed
request may clear and nothing else of theirs changes; the monitor's and the timer's events leave the receiver and the
transmit port alone (rules R177, R332, R355, R359). No step changes the parameters. -/
def Obligations.AgentsAreIsolated : Prop :=
  (∀ (s t : State) (e : Event) (es : List Event), s.inputs = e :: es → step s = .next t →
    ((∃ b, e = .rxByte b) ∨ e = .rxError ∨ e = .rxSilence ∨ e = .msTick →
      t.ai = s.ai ∧ t.di = s.di ∧ t.sysStatus = s.sysStatus ∧ t.estop = s.estop ∧ t.lastCheck = s.lastCheck ∧
        t.warnCount = s.warnCount ∧ t.critCount = s.critCount ∧ t.emergCount = s.emergCount ∧
        t.relayOut = s.relayOut ∧ t.indOut = s.indOut ∧
        (t.resetRequired = true → s.resetRequired = true)) ∧
    (e = .rxError ∨ e = .rxSilence ∨ e = .msTick → t.resetRequired = s.resetRequired) ∧
    ((∃ a d, e = .cycle a d) ∨ e = .msTick →
      t.rxBuf = s.rxBuf ∧ t.txLog = s.txLog ∧ t.txCount = s.txCount)) ∧
    ∀ s t : State, step s = .next t → t.cfg = s.cfg

/-! ## The latch and the outputs -/

/-- Rule R310, with the reset of rule R381: the latch is set only by a CRITICAL cycle, and cleared only by an OK
cycle under auto-reset, by a request that is executed normally and gives the reset-error command, or by a reset. -/
def Obligations.LatchIsSetAndClearedOnlyAsStated : Prop :=
  ∀ s t : State, step s = .next t →
    (s.resetRequired = false → t.resetRequired = true →
      ∃ a d es, s.inputs = .cycle a d :: es ∧ t.sysStatus = .critical) ∧
    (s.resetRequired = true → t.resetRequired = false →
      (∃ a d es, s.inputs = .cycle a d :: es ∧ t.sysStatus = .ok ∧ s.hrGet 0x4A ≠ 0) ∨
        (∃ b es i, s.inputs = .rxByte b :: es ∧ decode s.cfg.slaveAddr (s.rxBuf ++ [b]) = .ok i ∧
          i.givesResetError ∧ exceptionOf s.cfg i = none) ∨
        ∃ es, s.inputs = .reset :: es)

/-- Each of the two protective outputs is asserted only by a CRITICAL cycle, and clears only in an OK cycle with the
latch clear or auto-reset enabled, or by a reset (rules R300 to R303, R381). -/
def Obligations.OutputsChangeOnlyAsStated : Prop :=
  ∀ s t : State, step s = .next t →
    (s.relayOut = false ∧ t.relayOut = true ∨ s.indOut = false ∧ t.indOut = true →
      ∃ a d es, s.inputs = .cycle a d :: es ∧ t.sysStatus = .critical) ∧
    (s.relayOut = true ∧ t.relayOut = false ∨ s.indOut = true ∧ t.indOut = false →
      (∃ a d es, s.inputs = .cycle a d :: es ∧ t.sysStatus = .ok ∧
          (s.resetRequired = false ∨ s.hrGet 0x4A ≠ 0)) ∨
        ∃ es, s.inputs = .reset :: es)

/-- The outputs are driven together and asserted while the latch is set: every step keeps this. -/
def Obligations.StepKeepsOutputsLatched : Prop :=
  ∀ s t : State, s.outputsLatched → step s = .next t → t.outputsLatched

/-! ## Invariants -/

/-- Every step keeps every listed address of the register map inside its space (rules R90, R92, R93), and the lists in
their canonical form, which is the model's choice (log entry 9). -/
def Obligations.StepKeepsRegisterMapCanonical : Prop :=
  ∀ s t : State, Memory.wf s = true → step s = .next t → Memory.wf t = true

/-- The receiver never holds a complete frame nor more than its buffer (rules R63, R163): every step keeps this. -/
def Obligations.StepKeepsReceiverPartial : Prop :=
  ∀ s t : State, s.receiverPartial → step s = .next t → t.receiverPartial

/-- Rule R330: no step produces EMERGENCY, the emergency-stop flag, an emergency count, or (rule R279) a digital
error; and no cycle writes ESTOP_STATUS. -/
def Obligations.StepNeverProducesEmergency : Prop :=
  (∀ s t : State, s.noEmergency → step s = .next t → t.noEmergency) ∧
    ∀ (s t : State) (a : Vector Raw12 4) (d : Vector Bool 4) (es : List Event),
      s.inputs = .cycle a d :: es → step s = .next t → t.hrGet 0x1 = s.hrGet 0x1

/-- Rule R61: every step keeps every channel's alarm flags legal for its status, so that at most one is set. -/
def Obligations.StepKeepsFlagsLegal : Prop :=
  ∀ s t : State, s.flagsLegal → step s = .next t → t.flagsLegal

/-- Rules R33 and R34: input registers, coils and discrete inputs keep their reset values in every step. -/
def Obligations.StepKeepsUnwrittenSpaces : Prop :=
  ∀ s t : State, s.unwrittenSpaces → step s = .next t → t.unwrittenSpaces

/-- The statistics of every analog channel bound its last good reading: every step keeps this. -/
def Obligations.StepKeepsStatisticsBound : Prop :=
  ∀ s t : State, s.statsBound → step s = .next t → t.statsBound

/-- Every invariant holds after reset, in every instance; the canonical form of the register map among them is the
model's choice (log entry 9). -/
def Obligations.ResetIsSafe : Prop :=
  (∀ p : Params, (State.resetOf p).safe) ∧ State.reset.safe

/-- SMCORE stays safe along every run: whatever events are delivered, in whatever order, every state that a run
from a reset state reaches is safe. The canonical form of the register map, which is part of being safe, is the
model's choice (log entry 9). -/
def Obligations.EveryRunIsSafe : Prop :=
  ∀ (p : Params) (events : List Event) (n : Nat) (t : State),
    Host.Core.run Sys2Proof.core n { State.resetOf p with inputs := events } = .next t → t.safe

/-- Two canonical register maps of one instance that read alike in all four spaces list the same cells in each. The
canonical form is the model's choice (log entry 9). -/
def Obligations.CanonicalMapIsUnique : Prop :=
  ∀ s t : State, Memory.wf s = true → Memory.wf t = true → t.cfg = s.cfg →
    (∀ a, t.hrGet a = s.hrGet a) → (∀ a, t.irGet a = s.irGet a) → (∀ a, t.coilGet a = s.coilGet a) →
      (∀ a, t.discInGet a = s.discInGet a) →
        t.hr = s.hr ∧ t.ir = s.ir ∧ t.coil = s.coil ∧ t.discIn = s.discIn

end Statements
end

