-- ==== Sys2Proof/Laws/Encoding.lean ====
section
/-! SUPPORT. The laws of the field assembly of spec rule R121, of the CRC bytes, and the length of an encoded request. -/

namespace Sys2Proof

/-- `be16(h, l) = h * 256 + l` (rule R15). -/
theorem be16_toNat (h l : Byte) : (be16 h l).toNat = h.toNat * 256 + l.toNat := by
  unfold be16
  rw [BitVec.toNat_append, ← Nat.shiftLeft_add_eq_or_of_lt l.isLt, Nat.shiftLeft_eq]

/-- `hi8(v) = v / 256` (rule R15). -/
theorem hi8_toNat (v : Word) : (hi8 v).toNat = v.toNat / 256 := by
  have := v.isLt
  rw [hi8, BitVec.extractLsb'_toNat, Nat.shiftRight_eq_div_pow]
  omega

/-- `lo8(v) = v mod 256` (rule R15). -/
theorem lo8_toNat (v : Word) : (lo8 v).toNat = v.toNat % 256 := by
  rw [lo8, BitVec.extractLsb'_toNat]
  simp

@[simp] theorem hi8_be16 (h l : Byte) : hi8 (be16 h l) = h := by
  apply BitVec.eq_of_toNat_eq
  have := l.isLt
  rw [hi8_toNat, be16_toNat]
  omega

@[simp] theorem lo8_be16 (h l : Byte) : lo8 (be16 h l) = l := by
  apply BitVec.eq_of_toNat_eq
  have := l.isLt
  rw [lo8_toNat, be16_toNat]
  omega

@[simp] theorem be16_hi8_lo8 (v : Word) : be16 (hi8 v) (lo8 v) = v := by
  apply BitVec.eq_of_toNat_eq
  rw [be16_toNat, hi8_toNat, lo8_toNat]
  omega

@[simp] theorem byteAt_cons_zero (b : Byte) (f : List Byte) : byteAt (b :: f) 0 = b := rfl

@[simp] theorem byteAt_cons_succ (b : Byte) (f : List Byte) (k : Nat) : byteAt (b :: f) (k + 1) = byteAt f k := rfl

theorem byteAt_append_left (f g : List Byte) {k : Nat} (h : k < f.length) : byteAt (f ++ g) k = byteAt f k := by
  unfold byteAt
  exact List.getD_append f g 0 k h

theorem byteAt_append_right (f g : List Byte) {k : Nat} (h : f.length ≤ k) :
    byteAt (f ++ g) k = byteAt g (k - f.length) := by
  unfold byteAt
  exact List.getD_append_right f g 0 k h

@[simp] theorem crcBytes_length (s : List Byte) : (crcBytes s).length = 2 := rfl

@[simp] theorem withCrc_length (s : List Byte) : (withCrc s).length = s.length + 2 := by
  simp [withCrc]

@[simp] theorem wordBytes_length (v : Word) : (wordBytes v).length = 2 := rfl

/-- The CRC check of a frame given as its content and its last two bytes (rule R128). -/
theorem crcOk_append (s : List Byte) (c0 c1 : Byte) : crcOk (s ++ [c0, c1]) = (crc16 s == be16 c1 c0) := by
  have h1 : byteAt (s ++ [c0, c1]) (s.length + 1) = c1 := by
    rw [byteAt_append_right _ _ (by omega)]
    simp
  have h0 : byteAt (s ++ [c0, c1]) s.length = c0 := by
    rw [byteAt_append_right _ _ (by omega)]
    simp
  simp [crcOk, h0, h1]

/-- The bytes of a request after the function code are as many as its format says (rules R122, R123). -/
theorem Instr.payload_length {i : Instr} (h : i.wf = true) : i.payload.length + 4 = i.frameLen := by
  cases i <;> simp_all [Instr.wf, Instr.payload, Instr.frameLen]; omega

/-- An encoded request has the length of its format (rules R122, R123). -/
theorem encode_length (slave : Byte) {i : Instr} (h : i.wf = true) : (encode slave i).length = i.frameLen := by
  have := Instr.payload_length h
  simp [encode]
  omega

/-- The function code of an encoded request is its byte 1 (rule R120). -/
theorem byteAt_encode_one (slave : Byte) (i : Instr) : byteAt (encode slave i) 1 = i.code := by
  simp [encode, withCrc]

/-- The expected length of a frame whose code is not 0x10 (rule R132). -/
theorem expectedLen_eight {f : List Byte} (h : 2 ≤ f.length) (hc : byteAt f 1 ≠ 0x10) : expectedLen f = some 8 := by
  rw [expectedLen, if_neg (by omega), if_neg hc]

/-- The expected length of a 0x10 frame whose byte count is present (rule R132). -/
theorem expectedLen_wmr {f : List Byte} (h : 7 ≤ f.length) (hc : byteAt f 1 = 0x10) :
    expectedLen f = some (9 + (byteAt f 6).toNat) := by
  rw [expectedLen, if_neg (by omega), if_pos hc, if_neg (by omega)]

/-- Once the expected length is known, further bytes do not change it (rule R132). -/
theorem expectedLen_append {f : List Byte} {n : Nat} (h : expectedLen f = some n) (g : List Byte) :
    expectedLen (f ++ g) = some n := by
  have hl : 2 ≤ f.length := by
    by_contra hc
    rw [expectedLen, if_pos (by omega)] at h
    cases h
  have h1 : byteAt (f ++ g) 1 = byteAt f 1 := byteAt_append_left f g hl
  have hlen : (f ++ g).length = f.length + g.length := List.length_append
  rw [expectedLen, if_neg (by omega)] at h
  rw [expectedLen, if_neg (by omega), h1]
  by_cases hc : byteAt f 1 = 0x10
  · rw [if_pos hc] at h ⊢
    by_cases h7 : f.length < 7
    · rw [if_pos h7] at h
      cases h
    · rw [if_neg h7] at h
      rw [if_neg (by omega), byteAt_append_left f g (by omega), h]
  · rw [if_neg hc] at h ⊢
    exact h

/-- What the decoder accepts, and what it reads: a frame of its expected length, for this slave, with its CRC (rules
R171 to R173). -/
theorem decode_eq_ok_iff {slave : Byte} {f : List Byte} {i : Instr} :
    decode slave f = .ok i ↔
      expectedLen f = some f.length ∧ byteAt f 0 = slave ∧ crcOk f = true ∧ decodeFields f = i := by
  unfold decode
  cases expectedLen f with
  | none => simp
  | some n =>
    by_cases hl : f.length = n
    · by_cases hs : byteAt f 0 = slave
      · cases hc : crcOk f <;> simp [hl, hs]
      · simp [hl, hs]
    · simp [hl, Ne.symm hl]

end Sys2Proof
end

