-- ==== Sys2Proof/Laws/State.lean ====
section
/-! SUPPORT. What each named update of the state leaves in each field: one lemma per field per update, so that no
proof unfolds an update. -/

namespace Sys2Proof.Machine

open Sys2Proof

variable (s : State)

/-! ### `setHr` -/

@[simp] theorem State.setHr_cfg (m : Cells Word) : (s.setHr m).cfg = s.cfg := rfl
@[simp] theorem State.setHr_hr (m : Cells Word) : (s.setHr m).hr = m := rfl
@[simp] theorem State.setHr_ir (m : Cells Word) : (s.setHr m).ir = s.ir := rfl
@[simp] theorem State.setHr_coil (m : Cells Word) : (s.setHr m).coil = s.coil := rfl
@[simp] theorem State.setHr_discIn (m : Cells Word) : (s.setHr m).discIn = s.discIn := rfl
@[simp] theorem State.setHr_rxBuf (m : Cells Word) : (s.setHr m).rxBuf = s.rxBuf := rfl
@[simp] theorem State.setHr_ai (m : Cells Word) : (s.setHr m).ai = s.ai := rfl
@[simp] theorem State.setHr_di (m : Cells Word) : (s.setHr m).di = s.di := rfl
@[simp] theorem State.setHr_sysStatus (m : Cells Word) : (s.setHr m).sysStatus = s.sysStatus := rfl
@[simp] theorem State.setHr_estop (m : Cells Word) : (s.setHr m).estop = s.estop := rfl
@[simp] theorem State.setHr_lastCheck (m : Cells Word) : (s.setHr m).lastCheck = s.lastCheck := rfl
@[simp] theorem State.setHr_warnCount (m : Cells Word) : (s.setHr m).warnCount = s.warnCount := rfl
@[simp] theorem State.setHr_critCount (m : Cells Word) : (s.setHr m).critCount = s.critCount := rfl
@[simp] theorem State.setHr_emergCount (m : Cells Word) : (s.setHr m).emergCount = s.emergCount := rfl
@[simp] theorem State.setHr_resetRequired (m : Cells Word) : (s.setHr m).resetRequired = s.resetRequired := rfl
@[simp] theorem State.setHr_relayOut (m : Cells Word) : (s.setHr m).relayOut = s.relayOut := rfl
@[simp] theorem State.setHr_indOut (m : Cells Word) : (s.setHr m).indOut = s.indOut := rfl
@[simp] theorem State.setHr_uptimeMs (m : Cells Word) : (s.setHr m).uptimeMs = s.uptimeMs := rfl
@[simp] theorem State.setHr_inputs (m : Cells Word) : (s.setHr m).inputs = s.inputs := rfl
@[simp] theorem State.setHr_txLog (m : Cells Word) : (s.setHr m).txLog = s.txLog := rfl
@[simp] theorem State.setHr_txCount (m : Cells Word) : (s.setHr m).txCount = s.txCount := rfl

/-! ### `setIr` -/

@[simp] theorem State.setIr_cfg (m : Cells Word) : (s.setIr m).cfg = s.cfg := rfl
@[simp] theorem State.setIr_hr (m : Cells Word) : (s.setIr m).hr = s.hr := rfl
@[simp] theorem State.setIr_ir (m : Cells Word) : (s.setIr m).ir = m := rfl
@[simp] theorem State.setIr_coil (m : Cells Word) : (s.setIr m).coil = s.coil := rfl
@[simp] theorem State.setIr_discIn (m : Cells Word) : (s.setIr m).discIn = s.discIn := rfl
@[simp] theorem State.setIr_rxBuf (m : Cells Word) : (s.setIr m).rxBuf = s.rxBuf := rfl
@[simp] theorem State.setIr_ai (m : Cells Word) : (s.setIr m).ai = s.ai := rfl
@[simp] theorem State.setIr_di (m : Cells Word) : (s.setIr m).di = s.di := rfl
@[simp] theorem State.setIr_sysStatus (m : Cells Word) : (s.setIr m).sysStatus = s.sysStatus := rfl
@[simp] theorem State.setIr_estop (m : Cells Word) : (s.setIr m).estop = s.estop := rfl
@[simp] theorem State.setIr_lastCheck (m : Cells Word) : (s.setIr m).lastCheck = s.lastCheck := rfl
@[simp] theorem State.setIr_warnCount (m : Cells Word) : (s.setIr m).warnCount = s.warnCount := rfl
@[simp] theorem State.setIr_critCount (m : Cells Word) : (s.setIr m).critCount = s.critCount := rfl
@[simp] theorem State.setIr_emergCount (m : Cells Word) : (s.setIr m).emergCount = s.emergCount := rfl
@[simp] theorem State.setIr_resetRequired (m : Cells Word) : (s.setIr m).resetRequired = s.resetRequired := rfl
@[simp] theorem State.setIr_relayOut (m : Cells Word) : (s.setIr m).relayOut = s.relayOut := rfl
@[simp] theorem State.setIr_indOut (m : Cells Word) : (s.setIr m).indOut = s.indOut := rfl
@[simp] theorem State.setIr_uptimeMs (m : Cells Word) : (s.setIr m).uptimeMs = s.uptimeMs := rfl
@[simp] theorem State.setIr_inputs (m : Cells Word) : (s.setIr m).inputs = s.inputs := rfl
@[simp] theorem State.setIr_txLog (m : Cells Word) : (s.setIr m).txLog = s.txLog := rfl
@[simp] theorem State.setIr_txCount (m : Cells Word) : (s.setIr m).txCount = s.txCount := rfl

/-! ### `setRxBuf` -/

@[simp] theorem State.setRxBuf_cfg (f : List Byte) : (s.setRxBuf f).cfg = s.cfg := rfl
@[simp] theorem State.setRxBuf_hr (f : List Byte) : (s.setRxBuf f).hr = s.hr := rfl
@[simp] theorem State.setRxBuf_ir (f : List Byte) : (s.setRxBuf f).ir = s.ir := rfl
@[simp] theorem State.setRxBuf_coil (f : List Byte) : (s.setRxBuf f).coil = s.coil := rfl
@[simp] theorem State.setRxBuf_discIn (f : List Byte) : (s.setRxBuf f).discIn = s.discIn := rfl
@[simp] theorem State.setRxBuf_rxBuf (f : List Byte) : (s.setRxBuf f).rxBuf = f := rfl
@[simp] theorem State.setRxBuf_ai (f : List Byte) : (s.setRxBuf f).ai = s.ai := rfl
@[simp] theorem State.setRxBuf_di (f : List Byte) : (s.setRxBuf f).di = s.di := rfl
@[simp] theorem State.setRxBuf_sysStatus (f : List Byte) : (s.setRxBuf f).sysStatus = s.sysStatus := rfl
@[simp] theorem State.setRxBuf_estop (f : List Byte) : (s.setRxBuf f).estop = s.estop := rfl
@[simp] theorem State.setRxBuf_lastCheck (f : List Byte) : (s.setRxBuf f).lastCheck = s.lastCheck := rfl
@[simp] theorem State.setRxBuf_warnCount (f : List Byte) : (s.setRxBuf f).warnCount = s.warnCount := rfl
@[simp] theorem State.setRxBuf_critCount (f : List Byte) : (s.setRxBuf f).critCount = s.critCount := rfl
@[simp] theorem State.setRxBuf_emergCount (f : List Byte) : (s.setRxBuf f).emergCount = s.emergCount := rfl
@[simp] theorem State.setRxBuf_resetRequired (f : List Byte) : (s.setRxBuf f).resetRequired = s.resetRequired := rfl
@[simp] theorem State.setRxBuf_relayOut (f : List Byte) : (s.setRxBuf f).relayOut = s.relayOut := rfl
@[simp] theorem State.setRxBuf_indOut (f : List Byte) : (s.setRxBuf f).indOut = s.indOut := rfl
@[simp] theorem State.setRxBuf_uptimeMs (f : List Byte) : (s.setRxBuf f).uptimeMs = s.uptimeMs := rfl
@[simp] theorem State.setRxBuf_inputs (f : List Byte) : (s.setRxBuf f).inputs = s.inputs := rfl
@[simp] theorem State.setRxBuf_txLog (f : List Byte) : (s.setRxBuf f).txLog = s.txLog := rfl
@[simp] theorem State.setRxBuf_txCount (f : List Byte) : (s.setRxBuf f).txCount = s.txCount := rfl

/-! ### `setAi` -/

@[simp] theorem State.setAi_cfg (i : Fin 4) (c : AnalogChannel) : (s.setAi i c).cfg = s.cfg := rfl
@[simp] theorem State.setAi_hr (i : Fin 4) (c : AnalogChannel) : (s.setAi i c).hr = s.hr := rfl
@[simp] theorem State.setAi_ir (i : Fin 4) (c : AnalogChannel) : (s.setAi i c).ir = s.ir := rfl
@[simp] theorem State.setAi_coil (i : Fin 4) (c : AnalogChannel) : (s.setAi i c).coil = s.coil := rfl
@[simp] theorem State.setAi_discIn (i : Fin 4) (c : AnalogChannel) : (s.setAi i c).discIn = s.discIn := rfl
@[simp] theorem State.setAi_rxBuf (i : Fin 4) (c : AnalogChannel) : (s.setAi i c).rxBuf = s.rxBuf := rfl
@[simp] theorem State.setAi_ai (i : Fin 4) (c : AnalogChannel) : (s.setAi i c).ai = s.ai.set i.val c i.isLt := rfl
@[simp] theorem State.setAi_di (i : Fin 4) (c : AnalogChannel) : (s.setAi i c).di = s.di := rfl
@[simp] theorem State.setAi_sysStatus (i : Fin 4) (c : AnalogChannel) : (s.setAi i c).sysStatus = s.sysStatus := rfl
@[simp] theorem State.setAi_estop (i : Fin 4) (c : AnalogChannel) : (s.setAi i c).estop = s.estop := rfl
@[simp] theorem State.setAi_lastCheck (i : Fin 4) (c : AnalogChannel) : (s.setAi i c).lastCheck = s.lastCheck := rfl
@[simp] theorem State.setAi_warnCount (i : Fin 4) (c : AnalogChannel) : (s.setAi i c).warnCount = s.warnCount := rfl
@[simp] theorem State.setAi_critCount (i : Fin 4) (c : AnalogChannel) : (s.setAi i c).critCount = s.critCount := rfl
@[simp] theorem State.setAi_emergCount (i : Fin 4) (c : AnalogChannel) : (s.setAi i c).emergCount = s.emergCount := rfl
@[simp] theorem State.setAi_resetRequired (i : Fin 4) (c : AnalogChannel) : (s.setAi i c).resetRequired = s.resetRequired := rfl
@[simp] theorem State.setAi_relayOut (i : Fin 4) (c : AnalogChannel) : (s.setAi i c).relayOut = s.relayOut := rfl
@[simp] theorem State.setAi_indOut (i : Fin 4) (c : AnalogChannel) : (s.setAi i c).indOut = s.indOut := rfl
@[simp] theorem State.setAi_uptimeMs (i : Fin 4) (c : AnalogChannel) : (s.setAi i c).uptimeMs = s.uptimeMs := rfl
@[simp] theorem State.setAi_inputs (i : Fin 4) (c : AnalogChannel) : (s.setAi i c).inputs = s.inputs := rfl
@[simp] theorem State.setAi_txLog (i : Fin 4) (c : AnalogChannel) : (s.setAi i c).txLog = s.txLog := rfl
@[simp] theorem State.setAi_txCount (i : Fin 4) (c : AnalogChannel) : (s.setAi i c).txCount = s.txCount := rfl

/-! ### `setDi` -/

@[simp] theorem State.setDi_cfg (i : Fin 4) (c : DigitalChannel) : (s.setDi i c).cfg = s.cfg := rfl
@[simp] theorem State.setDi_hr (i : Fin 4) (c : DigitalChannel) : (s.setDi i c).hr = s.hr := rfl
@[simp] theorem State.setDi_ir (i : Fin 4) (c : DigitalChannel) : (s.setDi i c).ir = s.ir := rfl
@[simp] theorem State.setDi_coil (i : Fin 4) (c : DigitalChannel) : (s.setDi i c).coil = s.coil := rfl
@[simp] theorem State.setDi_discIn (i : Fin 4) (c : DigitalChannel) : (s.setDi i c).discIn = s.discIn := rfl
@[simp] theorem State.setDi_rxBuf (i : Fin 4) (c : DigitalChannel) : (s.setDi i c).rxBuf = s.rxBuf := rfl
@[simp] theorem State.setDi_ai (i : Fin 4) (c : DigitalChannel) : (s.setDi i c).ai = s.ai := rfl
@[simp] theorem State.setDi_di (i : Fin 4) (c : DigitalChannel) : (s.setDi i c).di = s.di.set i.val c i.isLt := rfl
@[simp] theorem State.setDi_sysStatus (i : Fin 4) (c : DigitalChannel) : (s.setDi i c).sysStatus = s.sysStatus := rfl
@[simp] theorem State.setDi_estop (i : Fin 4) (c : DigitalChannel) : (s.setDi i c).estop = s.estop := rfl
@[simp] theorem State.setDi_lastCheck (i : Fin 4) (c : DigitalChannel) : (s.setDi i c).lastCheck = s.lastCheck := rfl
@[simp] theorem State.setDi_warnCount (i : Fin 4) (c : DigitalChannel) : (s.setDi i c).warnCount = s.warnCount := rfl
@[simp] theorem State.setDi_critCount (i : Fin 4) (c : DigitalChannel) : (s.setDi i c).critCount = s.critCount := rfl
@[simp] theorem State.setDi_emergCount (i : Fin 4) (c : DigitalChannel) : (s.setDi i c).emergCount = s.emergCount := rfl
@[simp] theorem State.setDi_resetRequired (i : Fin 4) (c : DigitalChannel) : (s.setDi i c).resetRequired = s.resetRequired := rfl
@[simp] theorem State.setDi_relayOut (i : Fin 4) (c : DigitalChannel) : (s.setDi i c).relayOut = s.relayOut := rfl
@[simp] theorem State.setDi_indOut (i : Fin 4) (c : DigitalChannel) : (s.setDi i c).indOut = s.indOut := rfl
@[simp] theorem State.setDi_uptimeMs (i : Fin 4) (c : DigitalChannel) : (s.setDi i c).uptimeMs = s.uptimeMs := rfl
@[simp] theorem State.setDi_inputs (i : Fin 4) (c : DigitalChannel) : (s.setDi i c).inputs = s.inputs := rfl
@[simp] theorem State.setDi_txLog (i : Fin 4) (c : DigitalChannel) : (s.setDi i c).txLog = s.txLog := rfl
@[simp] theorem State.setDi_txCount (i : Fin 4) (c : DigitalChannel) : (s.setDi i c).txCount = s.txCount := rfl

/-! ### `setCounts` -/

@[simp] theorem State.setCounts_cfg (w c e : Word32) : (s.setCounts w c e).cfg = s.cfg := rfl
@[simp] theorem State.setCounts_hr (w c e : Word32) : (s.setCounts w c e).hr = s.hr := rfl
@[simp] theorem State.setCounts_ir (w c e : Word32) : (s.setCounts w c e).ir = s.ir := rfl
@[simp] theorem State.setCounts_coil (w c e : Word32) : (s.setCounts w c e).coil = s.coil := rfl
@[simp] theorem State.setCounts_discIn (w c e : Word32) : (s.setCounts w c e).discIn = s.discIn := rfl
@[simp] theorem State.setCounts_rxBuf (w c e : Word32) : (s.setCounts w c e).rxBuf = s.rxBuf := rfl
@[simp] theorem State.setCounts_ai (w c e : Word32) : (s.setCounts w c e).ai = s.ai := rfl
@[simp] theorem State.setCounts_di (w c e : Word32) : (s.setCounts w c e).di = s.di := rfl
@[simp] theorem State.setCounts_sysStatus (w c e : Word32) : (s.setCounts w c e).sysStatus = s.sysStatus := rfl
@[simp] theorem State.setCounts_estop (w c e : Word32) : (s.setCounts w c e).estop = s.estop := rfl
@[simp] theorem State.setCounts_lastCheck (w c e : Word32) : (s.setCounts w c e).lastCheck = s.lastCheck := rfl
@[simp] theorem State.setCounts_warnCount (w c e : Word32) : (s.setCounts w c e).warnCount = w := rfl
@[simp] theorem State.setCounts_critCount (w c e : Word32) : (s.setCounts w c e).critCount = c := rfl
@[simp] theorem State.setCounts_emergCount (w c e : Word32) : (s.setCounts w c e).emergCount = e := rfl
@[simp] theorem State.setCounts_resetRequired (w c e : Word32) : (s.setCounts w c e).resetRequired = s.resetRequired := rfl
@[simp] theorem State.setCounts_relayOut (w c e : Word32) : (s.setCounts w c e).relayOut = s.relayOut := rfl
@[simp] theorem State.setCounts_indOut (w c e : Word32) : (s.setCounts w c e).indOut = s.indOut := rfl
@[simp] theorem State.setCounts_uptimeMs (w c e : Word32) : (s.setCounts w c e).uptimeMs = s.uptimeMs := rfl
@[simp] theorem State.setCounts_inputs (w c e : Word32) : (s.setCounts w c e).inputs = s.inputs := rfl
@[simp] theorem State.setCounts_txLog (w c e : Word32) : (s.setCounts w c e).txLog = s.txLog := rfl
@[simp] theorem State.setCounts_txCount (w c e : Word32) : (s.setCounts w c e).txCount = s.txCount := rfl

/-! ### `setLatch` -/

@[simp] theorem State.setLatch_cfg (b : Bool) : (s.setLatch b).cfg = s.cfg := rfl
@[simp] theorem State.setLatch_hr (b : Bool) : (s.setLatch b).hr = s.hr := rfl
@[simp] theorem State.setLatch_ir (b : Bool) : (s.setLatch b).ir = s.ir := rfl
@[simp] theorem State.setLatch_coil (b : Bool) : (s.setLatch b).coil = s.coil := rfl
@[simp] theorem State.setLatch_discIn (b : Bool) : (s.setLatch b).discIn = s.discIn := rfl
@[simp] theorem State.setLatch_rxBuf (b : Bool) : (s.setLatch b).rxBuf = s.rxBuf := rfl
@[simp] theorem State.setLatch_ai (b : Bool) : (s.setLatch b).ai = s.ai := rfl
@[simp] theorem State.setLatch_di (b : Bool) : (s.setLatch b).di = s.di := rfl
@[simp] theorem State.setLatch_sysStatus (b : Bool) : (s.setLatch b).sysStatus = s.sysStatus := rfl
@[simp] theorem State.setLatch_estop (b : Bool) : (s.setLatch b).estop = s.estop := rfl
@[simp] theorem State.setLatch_lastCheck (b : Bool) : (s.setLatch b).lastCheck = s.lastCheck := rfl
@[simp] theorem State.setLatch_warnCount (b : Bool) : (s.setLatch b).warnCount = s.warnCount := rfl
@[simp] theorem State.setLatch_critCount (b : Bool) : (s.setLatch b).critCount = s.critCount := rfl
@[simp] theorem State.setLatch_emergCount (b : Bool) : (s.setLatch b).emergCount = s.emergCount := rfl
@[simp] theorem State.setLatch_resetRequired (b : Bool) : (s.setLatch b).resetRequired = b := rfl
@[simp] theorem State.setLatch_relayOut (b : Bool) : (s.setLatch b).relayOut = s.relayOut := rfl
@[simp] theorem State.setLatch_indOut (b : Bool) : (s.setLatch b).indOut = s.indOut := rfl
@[simp] theorem State.setLatch_uptimeMs (b : Bool) : (s.setLatch b).uptimeMs = s.uptimeMs := rfl
@[simp] theorem State.setLatch_inputs (b : Bool) : (s.setLatch b).inputs = s.inputs := rfl
@[simp] theorem State.setLatch_txLog (b : Bool) : (s.setLatch b).txLog = s.txLog := rfl
@[simp] theorem State.setLatch_txCount (b : Bool) : (s.setLatch b).txCount = s.txCount := rfl

/-! ### `setOutputs` -/

@[simp] theorem State.setOutputs_cfg (b : Bool) : (s.setOutputs b).cfg = s.cfg := rfl
@[simp] theorem State.setOutputs_hr (b : Bool) : (s.setOutputs b).hr = s.hr := rfl
@[simp] theorem State.setOutputs_ir (b : Bool) : (s.setOutputs b).ir = s.ir := rfl
@[simp] theorem State.setOutputs_coil (b : Bool) : (s.setOutputs b).coil = s.coil := rfl
@[simp] theorem State.setOutputs_discIn (b : Bool) : (s.setOutputs b).discIn = s.discIn := rfl
@[simp] theorem State.setOutputs_rxBuf (b : Bool) : (s.setOutputs b).rxBuf = s.rxBuf := rfl
@[simp] theorem State.setOutputs_ai (b : Bool) : (s.setOutputs b).ai = s.ai := rfl
@[simp] theorem State.setOutputs_di (b : Bool) : (s.setOutputs b).di = s.di := rfl
@[simp] theorem State.setOutputs_sysStatus (b : Bool) : (s.setOutputs b).sysStatus = s.sysStatus := rfl
@[simp] theorem State.setOutputs_estop (b : Bool) : (s.setOutputs b).estop = s.estop := rfl
@[simp] theorem State.setOutputs_lastCheck (b : Bool) : (s.setOutputs b).lastCheck = s.lastCheck := rfl
@[simp] theorem State.setOutputs_warnCount (b : Bool) : (s.setOutputs b).warnCount = s.warnCount := rfl
@[simp] theorem State.setOutputs_critCount (b : Bool) : (s.setOutputs b).critCount = s.critCount := rfl
@[simp] theorem State.setOutputs_emergCount (b : Bool) : (s.setOutputs b).emergCount = s.emergCount := rfl
@[simp] theorem State.setOutputs_resetRequired (b : Bool) : (s.setOutputs b).resetRequired = s.resetRequired := rfl
@[simp] theorem State.setOutputs_relayOut (b : Bool) : (s.setOutputs b).relayOut = b := rfl
@[simp] theorem State.setOutputs_indOut (b : Bool) : (s.setOutputs b).indOut = b := rfl
@[simp] theorem State.setOutputs_uptimeMs (b : Bool) : (s.setOutputs b).uptimeMs = s.uptimeMs := rfl
@[simp] theorem State.setOutputs_inputs (b : Bool) : (s.setOutputs b).inputs = s.inputs := rfl
@[simp] theorem State.setOutputs_txLog (b : Bool) : (s.setOutputs b).txLog = s.txLog := rfl
@[simp] theorem State.setOutputs_txCount (b : Bool) : (s.setOutputs b).txCount = s.txCount := rfl

/-! ### `setCheck` -/

@[simp] theorem State.setCheck_cfg (g : Status) (n : Word32) : (s.setCheck g n).cfg = s.cfg := rfl
@[simp] theorem State.setCheck_hr (g : Status) (n : Word32) : (s.setCheck g n).hr = s.hr := rfl
@[simp] theorem State.setCheck_ir (g : Status) (n : Word32) : (s.setCheck g n).ir = s.ir := rfl
@[simp] theorem State.setCheck_coil (g : Status) (n : Word32) : (s.setCheck g n).coil = s.coil := rfl
@[simp] theorem State.setCheck_discIn (g : Status) (n : Word32) : (s.setCheck g n).discIn = s.discIn := rfl
@[simp] theorem State.setCheck_rxBuf (g : Status) (n : Word32) : (s.setCheck g n).rxBuf = s.rxBuf := rfl
@[simp] theorem State.setCheck_ai (g : Status) (n : Word32) : (s.setCheck g n).ai = s.ai := rfl
@[simp] theorem State.setCheck_di (g : Status) (n : Word32) : (s.setCheck g n).di = s.di := rfl
@[simp] theorem State.setCheck_sysStatus (g : Status) (n : Word32) : (s.setCheck g n).sysStatus = g := rfl
@[simp] theorem State.setCheck_estop (g : Status) (n : Word32) : (s.setCheck g n).estop = s.estop := rfl
@[simp] theorem State.setCheck_lastCheck (g : Status) (n : Word32) : (s.setCheck g n).lastCheck = n := rfl
@[simp] theorem State.setCheck_warnCount (g : Status) (n : Word32) : (s.setCheck g n).warnCount = s.warnCount := rfl
@[simp] theorem State.setCheck_critCount (g : Status) (n : Word32) : (s.setCheck g n).critCount = s.critCount := rfl
@[simp] theorem State.setCheck_emergCount (g : Status) (n : Word32) : (s.setCheck g n).emergCount = s.emergCount := rfl
@[simp] theorem State.setCheck_resetRequired (g : Status) (n : Word32) : (s.setCheck g n).resetRequired = s.resetRequired := rfl
@[simp] theorem State.setCheck_relayOut (g : Status) (n : Word32) : (s.setCheck g n).relayOut = s.relayOut := rfl
@[simp] theorem State.setCheck_indOut (g : Status) (n : Word32) : (s.setCheck g n).indOut = s.indOut := rfl
@[simp] theorem State.setCheck_uptimeMs (g : Status) (n : Word32) : (s.setCheck g n).uptimeMs = s.uptimeMs := rfl
@[simp] theorem State.setCheck_inputs (g : Status) (n : Word32) : (s.setCheck g n).inputs = s.inputs := rfl
@[simp] theorem State.setCheck_txLog (g : Status) (n : Word32) : (s.setCheck g n).txLog = s.txLog := rfl
@[simp] theorem State.setCheck_txCount (g : Status) (n : Word32) : (s.setCheck g n).txCount = s.txCount := rfl

/-! ### `setUptime` -/

@[simp] theorem State.setUptime_cfg (n : Word32) : (s.setUptime n).cfg = s.cfg := rfl
@[simp] theorem State.setUptime_hr (n : Word32) : (s.setUptime n).hr = s.hr := rfl
@[simp] theorem State.setUptime_ir (n : Word32) : (s.setUptime n).ir = s.ir := rfl
@[simp] theorem State.setUptime_coil (n : Word32) : (s.setUptime n).coil = s.coil := rfl
@[simp] theorem State.setUptime_discIn (n : Word32) : (s.setUptime n).discIn = s.discIn := rfl
@[simp] theorem State.setUptime_rxBuf (n : Word32) : (s.setUptime n).rxBuf = s.rxBuf := rfl
@[simp] theorem State.setUptime_ai (n : Word32) : (s.setUptime n).ai = s.ai := rfl
@[simp] theorem State.setUptime_di (n : Word32) : (s.setUptime n).di = s.di := rfl
@[simp] theorem State.setUptime_sysStatus (n : Word32) : (s.setUptime n).sysStatus = s.sysStatus := rfl
@[simp] theorem State.setUptime_estop (n : Word32) : (s.setUptime n).estop = s.estop := rfl
@[simp] theorem State.setUptime_lastCheck (n : Word32) : (s.setUptime n).lastCheck = s.lastCheck := rfl
@[simp] theorem State.setUptime_warnCount (n : Word32) : (s.setUptime n).warnCount = s.warnCount := rfl
@[simp] theorem State.setUptime_critCount (n : Word32) : (s.setUptime n).critCount = s.critCount := rfl
@[simp] theorem State.setUptime_emergCount (n : Word32) : (s.setUptime n).emergCount = s.emergCount := rfl
@[simp] theorem State.setUptime_resetRequired (n : Word32) : (s.setUptime n).resetRequired = s.resetRequired := rfl
@[simp] theorem State.setUptime_relayOut (n : Word32) : (s.setUptime n).relayOut = s.relayOut := rfl
@[simp] theorem State.setUptime_indOut (n : Word32) : (s.setUptime n).indOut = s.indOut := rfl
@[simp] theorem State.setUptime_uptimeMs (n : Word32) : (s.setUptime n).uptimeMs = n := rfl
@[simp] theorem State.setUptime_inputs (n : Word32) : (s.setUptime n).inputs = s.inputs := rfl
@[simp] theorem State.setUptime_txLog (n : Word32) : (s.setUptime n).txLog = s.txLog := rfl
@[simp] theorem State.setUptime_txCount (n : Word32) : (s.setUptime n).txCount = s.txCount := rfl

/-! ### `setInputs` -/

@[simp] theorem State.setInputs_cfg (es : List Event) : (s.setInputs es).cfg = s.cfg := rfl
@[simp] theorem State.setInputs_hr (es : List Event) : (s.setInputs es).hr = s.hr := rfl
@[simp] theorem State.setInputs_ir (es : List Event) : (s.setInputs es).ir = s.ir := rfl
@[simp] theorem State.setInputs_coil (es : List Event) : (s.setInputs es).coil = s.coil := rfl
@[simp] theorem State.setInputs_discIn (es : List Event) : (s.setInputs es).discIn = s.discIn := rfl
@[simp] theorem State.setInputs_rxBuf (es : List Event) : (s.setInputs es).rxBuf = s.rxBuf := rfl
@[simp] theorem State.setInputs_ai (es : List Event) : (s.setInputs es).ai = s.ai := rfl
@[simp] theorem State.setInputs_di (es : List Event) : (s.setInputs es).di = s.di := rfl
@[simp] theorem State.setInputs_sysStatus (es : List Event) : (s.setInputs es).sysStatus = s.sysStatus := rfl
@[simp] theorem State.setInputs_estop (es : List Event) : (s.setInputs es).estop = s.estop := rfl
@[simp] theorem State.setInputs_lastCheck (es : List Event) : (s.setInputs es).lastCheck = s.lastCheck := rfl
@[simp] theorem State.setInputs_warnCount (es : List Event) : (s.setInputs es).warnCount = s.warnCount := rfl
@[simp] theorem State.setInputs_critCount (es : List Event) : (s.setInputs es).critCount = s.critCount := rfl
@[simp] theorem State.setInputs_emergCount (es : List Event) : (s.setInputs es).emergCount = s.emergCount := rfl
@[simp] theorem State.setInputs_resetRequired (es : List Event) : (s.setInputs es).resetRequired = s.resetRequired := rfl
@[simp] theorem State.setInputs_relayOut (es : List Event) : (s.setInputs es).relayOut = s.relayOut := rfl
@[simp] theorem State.setInputs_indOut (es : List Event) : (s.setInputs es).indOut = s.indOut := rfl
@[simp] theorem State.setInputs_uptimeMs (es : List Event) : (s.setInputs es).uptimeMs = s.uptimeMs := rfl
@[simp] theorem State.setInputs_inputs (es : List Event) : (s.setInputs es).inputs = es := rfl
@[simp] theorem State.setInputs_txLog (es : List Event) : (s.setInputs es).txLog = s.txLog := rfl
@[simp] theorem State.setInputs_txCount (es : List Event) : (s.setInputs es).txCount = s.txCount := rfl

/-! ### `logTx` -/

@[simp] theorem State.logTx_cfg (f : List Byte) : (s.logTx f).cfg = s.cfg := rfl
@[simp] theorem State.logTx_hr (f : List Byte) : (s.logTx f).hr = s.hr := rfl
@[simp] theorem State.logTx_ir (f : List Byte) : (s.logTx f).ir = s.ir := rfl
@[simp] theorem State.logTx_coil (f : List Byte) : (s.logTx f).coil = s.coil := rfl
@[simp] theorem State.logTx_discIn (f : List Byte) : (s.logTx f).discIn = s.discIn := rfl
@[simp] theorem State.logTx_rxBuf (f : List Byte) : (s.logTx f).rxBuf = s.rxBuf := rfl
@[simp] theorem State.logTx_ai (f : List Byte) : (s.logTx f).ai = s.ai := rfl
@[simp] theorem State.logTx_di (f : List Byte) : (s.logTx f).di = s.di := rfl
@[simp] theorem State.logTx_sysStatus (f : List Byte) : (s.logTx f).sysStatus = s.sysStatus := rfl
@[simp] theorem State.logTx_estop (f : List Byte) : (s.logTx f).estop = s.estop := rfl
@[simp] theorem State.logTx_lastCheck (f : List Byte) : (s.logTx f).lastCheck = s.lastCheck := rfl
@[simp] theorem State.logTx_warnCount (f : List Byte) : (s.logTx f).warnCount = s.warnCount := rfl
@[simp] theorem State.logTx_critCount (f : List Byte) : (s.logTx f).critCount = s.critCount := rfl
@[simp] theorem State.logTx_emergCount (f : List Byte) : (s.logTx f).emergCount = s.emergCount := rfl
@[simp] theorem State.logTx_resetRequired (f : List Byte) : (s.logTx f).resetRequired = s.resetRequired := rfl
@[simp] theorem State.logTx_relayOut (f : List Byte) : (s.logTx f).relayOut = s.relayOut := rfl
@[simp] theorem State.logTx_indOut (f : List Byte) : (s.logTx f).indOut = s.indOut := rfl
@[simp] theorem State.logTx_uptimeMs (f : List Byte) : (s.logTx f).uptimeMs = s.uptimeMs := rfl
@[simp] theorem State.logTx_inputs (f : List Byte) : (s.logTx f).inputs = s.inputs := rfl
@[simp] theorem State.logTx_txLog (f : List Byte) : (s.logTx f).txLog = s.txLog ++ [⟨f, Config.txOutcome s.txCount⟩] := rfl
@[simp] theorem State.logTx_txCount (f : List Byte) : (s.logTx f).txCount = s.txCount + 1 := rfl

/-! ### `hrSet` -/

@[simp] theorem State.hrSet_cfg (a : Nat) (v : Word) : (s.hrSet a v).cfg = s.cfg := rfl
@[simp] theorem State.hrSet_hr (a : Nat) (v : Word) : (s.hrSet a v).hr = cellsWrite (holdingReset s.cfg) s.hr a v := rfl
@[simp] theorem State.hrSet_ir (a : Nat) (v : Word) : (s.hrSet a v).ir = s.ir := rfl
@[simp] theorem State.hrSet_coil (a : Nat) (v : Word) : (s.hrSet a v).coil = s.coil := rfl
@[simp] theorem State.hrSet_discIn (a : Nat) (v : Word) : (s.hrSet a v).discIn = s.discIn := rfl
@[simp] theorem State.hrSet_rxBuf (a : Nat) (v : Word) : (s.hrSet a v).rxBuf = s.rxBuf := rfl
@[simp] theorem State.hrSet_ai (a : Nat) (v : Word) : (s.hrSet a v).ai = s.ai := rfl
@[simp] theorem State.hrSet_di (a : Nat) (v : Word) : (s.hrSet a v).di = s.di := rfl
@[simp] theorem State.hrSet_sysStatus (a : Nat) (v : Word) : (s.hrSet a v).sysStatus = s.sysStatus := rfl
@[simp] theorem State.hrSet_estop (a : Nat) (v : Word) : (s.hrSet a v).estop = s.estop := rfl
@[simp] theorem State.hrSet_lastCheck (a : Nat) (v : Word) : (s.hrSet a v).lastCheck = s.lastCheck := rfl
@[simp] theorem State.hrSet_warnCount (a : Nat) (v : Word) : (s.hrSet a v).warnCount = s.warnCount := rfl
@[simp] theorem State.hrSet_critCount (a : Nat) (v : Word) : (s.hrSet a v).critCount = s.critCount := rfl
@[simp] theorem State.hrSet_emergCount (a : Nat) (v : Word) : (s.hrSet a v).emergCount = s.emergCount := rfl
@[simp] theorem State.hrSet_resetRequired (a : Nat) (v : Word) : (s.hrSet a v).resetRequired = s.resetRequired := rfl
@[simp] theorem State.hrSet_relayOut (a : Nat) (v : Word) : (s.hrSet a v).relayOut = s.relayOut := rfl
@[simp] theorem State.hrSet_indOut (a : Nat) (v : Word) : (s.hrSet a v).indOut = s.indOut := rfl
@[simp] theorem State.hrSet_uptimeMs (a : Nat) (v : Word) : (s.hrSet a v).uptimeMs = s.uptimeMs := rfl
@[simp] theorem State.hrSet_inputs (a : Nat) (v : Word) : (s.hrSet a v).inputs = s.inputs := rfl
@[simp] theorem State.hrSet_txLog (a : Nat) (v : Word) : (s.hrSet a v).txLog = s.txLog := rfl
@[simp] theorem State.hrSet_txCount (a : Nat) (v : Word) : (s.hrSet a v).txCount = s.txCount := rfl

/-! ### `irSet` -/

@[simp] theorem State.irSet_cfg (a : Nat) (v : Word) : (s.irSet a v).cfg = s.cfg := rfl
@[simp] theorem State.irSet_hr (a : Nat) (v : Word) : (s.irSet a v).hr = s.hr := rfl
@[simp] theorem State.irSet_ir (a : Nat) (v : Word) : (s.irSet a v).ir = cellsWrite s.cfg.inputRegInit s.ir a v := rfl
@[simp] theorem State.irSet_coil (a : Nat) (v : Word) : (s.irSet a v).coil = s.coil := rfl
@[simp] theorem State.irSet_discIn (a : Nat) (v : Word) : (s.irSet a v).discIn = s.discIn := rfl
@[simp] theorem State.irSet_rxBuf (a : Nat) (v : Word) : (s.irSet a v).rxBuf = s.rxBuf := rfl
@[simp] theorem State.irSet_ai (a : Nat) (v : Word) : (s.irSet a v).ai = s.ai := rfl
@[simp] theorem State.irSet_di (a : Nat) (v : Word) : (s.irSet a v).di = s.di := rfl
@[simp] theorem State.irSet_sysStatus (a : Nat) (v : Word) : (s.irSet a v).sysStatus = s.sysStatus := rfl
@[simp] theorem State.irSet_estop (a : Nat) (v : Word) : (s.irSet a v).estop = s.estop := rfl
@[simp] theorem State.irSet_lastCheck (a : Nat) (v : Word) : (s.irSet a v).lastCheck = s.lastCheck := rfl
@[simp] theorem State.irSet_warnCount (a : Nat) (v : Word) : (s.irSet a v).warnCount = s.warnCount := rfl
@[simp] theorem State.irSet_critCount (a : Nat) (v : Word) : (s.irSet a v).critCount = s.critCount := rfl
@[simp] theorem State.irSet_emergCount (a : Nat) (v : Word) : (s.irSet a v).emergCount = s.emergCount := rfl
@[simp] theorem State.irSet_resetRequired (a : Nat) (v : Word) : (s.irSet a v).resetRequired = s.resetRequired := rfl
@[simp] theorem State.irSet_relayOut (a : Nat) (v : Word) : (s.irSet a v).relayOut = s.relayOut := rfl
@[simp] theorem State.irSet_indOut (a : Nat) (v : Word) : (s.irSet a v).indOut = s.indOut := rfl
@[simp] theorem State.irSet_uptimeMs (a : Nat) (v : Word) : (s.irSet a v).uptimeMs = s.uptimeMs := rfl
@[simp] theorem State.irSet_inputs (a : Nat) (v : Word) : (s.irSet a v).inputs = s.inputs := rfl
@[simp] theorem State.irSet_txLog (a : Nat) (v : Word) : (s.irSet a v).txLog = s.txLog := rfl
@[simp] theorem State.irSet_txCount (a : Nat) (v : Word) : (s.irSet a v).txCount = s.txCount := rfl

end Sys2Proof.Machine
end

