-- ==== Sys2Proof/Laws/Memory.lean ====
section
/-! SUPPORT. The laws of the register-map spaces: a read after a write to the same address gives the value
written, a write leaves every other address alone, and every write keeps the canonical form. -/

namespace Sys2Proof.Machine

open Sys2Proof

/-! ## One space -/

theorem cellsRead_insert {α : Type} (reset : Nat → α) (m : Cells α) (a x : Nat) (v : α)
    (h : ∀ c ∈ m, c.1 ≠ a) :
    cellsRead reset (cellsInsert a v m) x = if x = a then v else cellsRead reset m x := by
  induction m with
  | nil => simp only [cellsInsert, cellsRead, eq_comm]
  | cons c m ih =>
    obtain ⟨b, w⟩ := c
    have hb : b ≠ a := h (b, w) (by simp)
    have ih := ih fun c hc => h c (List.mem_cons_of_mem _ hc)
    unfold cellsInsert
    split
    · simp only [cellsRead, ih]
      by_cases hx : b = x
      · simp [← hx, hb]
      · simp [hx]
    · simp only [cellsRead, eq_comm]

theorem cellsRead_filter {α : Type} (reset : Nat → α) (m : Cells α) (a x : Nat) :
    cellsRead reset (m.filter fun c => c.1 ≠ a) x = if x = a then reset a else cellsRead reset m x := by
  induction m with
  | nil => by_cases hx : x = a <;> simp [cellsRead, hx]
  | cons c m ih =>
    obtain ⟨b, w⟩ := c
    by_cases hb : b = a
    · subst hb
      rw [List.filter_cons_of_neg (by simp), ih]
      by_cases hx : x = b
      · simp [hx]
      · simp [cellsRead, hx, Ne.symm hx]
    · rw [List.filter_cons_of_pos (by simpa using hb)]
      simp only [cellsRead, ih]
      by_cases hx : b = x
      · simp [← hx, hb]
      · simp [hx]

/-- What a space reads after a write: the value written at its address, and what it read before elsewhere. -/
theorem cellsRead_write {α : Type} [DecidableEq α] (reset : Nat → α) (m : Cells α) (a x : Nat) (v : α) :
    cellsRead reset (cellsWrite reset m a v) x = if x = a then v else cellsRead reset m x := by
  unfold cellsWrite
  split
  · next h => rw [cellsRead_filter, h]
  · rw [cellsRead_insert _ _ _ _ _ (by simp), cellsRead_filter]
    split <;> simp_all

theorem cellsWfFrom_mono {α : Type} [DecidableEq α] {reset : Nat → α} {len lo lo' : Nat} {m : Cells α}
    (hle : lo' ≤ lo) (h : cellsWfFrom reset len lo m = true) : cellsWfFrom reset len lo' m = true := by
  cases m with
  | nil => rfl
  | cons c m =>
    simp only [cellsWfFrom, Bool.and_eq_true, decide_eq_true_eq] at h ⊢
    exact ⟨⟨⟨Nat.le_trans hle h.1.1.1, h.1.1.2⟩, h.1.2⟩, h.2⟩

theorem cellsWfFrom_filter {α : Type} [DecidableEq α] {reset : Nat → α} {len : Nat} (p : Nat × α → Bool) :
    ∀ {lo : Nat} {m : Cells α}, cellsWfFrom reset len lo m = true → cellsWfFrom reset len lo (m.filter p) = true
  | _, [], _ => rfl
  | lo, c :: m, h => by
    simp only [cellsWfFrom, Bool.and_eq_true, decide_eq_true_eq] at h
    have ih := cellsWfFrom_filter p h.2
    by_cases hp : p c
    · simp only [List.filter_cons_of_pos hp, cellsWfFrom, Bool.and_eq_true, decide_eq_true_eq]
      exact ⟨h.1, ih⟩
    · rw [List.filter_cons_of_neg hp]
      exact cellsWfFrom_mono (by omega) ih

theorem cellsWfFrom_insert {α : Type} [DecidableEq α] {reset : Nat → α} {len a : Nat} {v : α} (ha : a < len)
    (hv : v ≠ reset a) :
    ∀ {lo : Nat} {m : Cells α}, lo ≤ a → (∀ c ∈ m, c.1 ≠ a) → cellsWfFrom reset len lo m = true →
      cellsWfFrom reset len lo (cellsInsert a v m) = true
  | lo, [], hlo, _, _ => by simp [cellsInsert, cellsWfFrom, hlo, ha, hv]
  | lo, (b, w) :: m, hlo, hne, h => by
    have hb : b ≠ a := hne (b, w) (by simp)
    simp only [cellsWfFrom, Bool.and_eq_true, decide_eq_true_eq] at h
    unfold cellsInsert
    split
    · have ih := cellsWfFrom_insert ha hv (show b + 1 ≤ a by omega)
        (fun c hc => hne c (List.mem_cons_of_mem _ hc)) h.2
      simp only [cellsWfFrom, Bool.and_eq_true, decide_eq_true_eq]
      exact ⟨h.1, ih⟩
    · simp only [cellsWfFrom, Bool.and_eq_true, decide_eq_true_eq]
      exact ⟨⟨⟨hlo, ha⟩, hv⟩, ⟨⟨by omega, h.1.1.2⟩, h.1.2⟩, h.2⟩

/-- A write inside the space keeps the canonical form. -/
theorem cellsWf_write {α : Type} [DecidableEq α] {reset : Nat → α} {len a : Nat} {m : Cells α} (v : α)
    (ha : a < len) (h : cellsWf reset len m = true) : cellsWf reset len (cellsWrite reset m a v) = true := by
  unfold cellsWf cellsWrite at *
  split
  · exact cellsWfFrom_filter _ h
  · exact cellsWfFrom_insert ha (by assumption) (Nat.zero_le a) (by simp) (cellsWfFrom_filter _ h)

/-! ## The holding and input registers of the state -/

/-- What the holding registers read after `HR[a] <- v`. -/
theorem State.hrGet_hrSet (s : State) (a x : Nat) (v : Word) :
    (s.hrSet a v).hrGet x = if x = a then v else s.hrGet x :=
  cellsRead_write _ _ _ _ _

theorem State.hrGet_hrSet_same (s : State) (a : Nat) (v : Word) : (s.hrSet a v).hrGet a = v := by
  rw [State.hrGet_hrSet, if_pos rfl]

theorem State.hrGet_hrSet_other (s : State) {a x : Nat} (v : Word) (h : x ≠ a) :
    (s.hrSet a v).hrGet x = s.hrGet x := by
  rw [State.hrGet_hrSet, if_neg h]

/-- What the input registers read after `IR[a] <- v`. -/
theorem State.irGet_irSet (s : State) (a x : Nat) (v : Word) :
    (s.irSet a v).irGet x = if x = a then v else s.irGet x :=
  cellsRead_write _ _ _ _ _

/-- A read of a holding register depends on the parameters and the listed cells alone. -/
theorem State.hrGet_congr {s t : State} (hc : t.cfg = s.cfg) (hm : t.hr = s.hr) (a : Nat) : t.hrGet a = s.hrGet a := by
  unfold State.hrGet
  rw [hc, hm]

@[simp] theorem State.hrGet_setRxBuf (s : State) (f : List Byte) (a : Nat) : (s.setRxBuf f).hrGet a = s.hrGet a := rfl
@[simp] theorem State.hrGet_setAi (s : State) (i : Fin 4) (c : AnalogChannel) (a : Nat) :
    (s.setAi i c).hrGet a = s.hrGet a := rfl
@[simp] theorem State.hrGet_setDi (s : State) (i : Fin 4) (c : DigitalChannel) (a : Nat) :
    (s.setDi i c).hrGet a = s.hrGet a := rfl
@[simp] theorem State.hrGet_setCounts (s : State) (w c e : Word32) (a : Nat) :
    (s.setCounts w c e).hrGet a = s.hrGet a := rfl
@[simp] theorem State.hrGet_setLatch (s : State) (b : Bool) (a : Nat) : (s.setLatch b).hrGet a = s.hrGet a := rfl
@[simp] theorem State.hrGet_setOutputs (s : State) (b : Bool) (a : Nat) : (s.setOutputs b).hrGet a = s.hrGet a := rfl
@[simp] theorem State.hrGet_setCheck (s : State) (g : Status) (n : Word32) (a : Nat) :
    (s.setCheck g n).hrGet a = s.hrGet a := rfl
@[simp] theorem State.hrGet_setUptime (s : State) (n : Word32) (a : Nat) : (s.setUptime n).hrGet a = s.hrGet a := rfl
@[simp] theorem State.hrGet_setInputs (s : State) (es : List Event) (a : Nat) :
    (s.setInputs es).hrGet a = s.hrGet a := rfl
@[simp] theorem State.hrGet_logTx (s : State) (f : List Byte) (a : Nat) : (s.logTx f).hrGet a = s.hrGet a := rfl

/-- The canonical form is a property of the parameters and the four spaces alone. -/
theorem Memory.wf_congr {s t : State} (hc : t.cfg = s.cfg) (h1 : t.hr = s.hr) (h2 : t.ir = s.ir)
    (h3 : t.coil = s.coil) (h4 : t.discIn = s.discIn) : Memory.wf t = Memory.wf s := by
  unfold Memory.wf
  rw [hc, h1, h2, h3, h4]

/-- `HR[a] <- v` inside the space keeps the canonical form. -/
theorem Memory.wf_hrSet {s : State} {a : Nat} (v : Word) (ha : a < s.cfg.holdingRegCount)
    (h : Memory.wf s = true) : Memory.wf (s.hrSet a v) = true := by
  unfold Memory.wf at *
  simp only [Bool.and_eq_true] at h ⊢
  exact ⟨⟨⟨cellsWf_write v ha h.1.1.1, h.1.1.2⟩, h.1.2⟩, h.2⟩

/-- `IR[a] <- v` inside the space keeps the canonical form. -/
theorem Memory.wf_irSet {s : State} {a : Nat} (v : Word) (ha : a < s.cfg.inputRegCount)
    (h : Memory.wf s = true) : Memory.wf (s.irSet a v) = true := by
  unfold Memory.wf at *
  simp only [Bool.and_eq_true] at h ⊢
  exact ⟨⟨⟨h.1.1.1, cellsWf_write v ha h.1.1.2⟩, h.1.2⟩, h.2⟩

/-- The register map of the reset state is in canonical form: nothing is listed. -/
theorem Memory.wf_resetOf (p : Params) : Memory.wf (State.resetOf p) = true := rfl

end Sys2Proof.Machine
end

