-- ==== Sys2Proof/Laws/Access.lean ====
section
/-! SUPPORT. What each shared operation of the protocol engine does, said once: the access contract (spec rule R92),
runs of reads and writes (R200, R221 to R223), the response (R178, R343), and from them each request's result. -/

namespace Sys2Proof.Machine

open Sys2Proof

/-! ## Reads -/

theorem regRead_inRange {sp : Space} {a : Nat} {s : State} (h : a < s.spaceLen sp) :
    regRead sp a s = .ok (s.spaceGet sp a) := by
  rw [regRead, if_neg (by omega)]

theorem regWrite_inRange {sp : Space} {a : Nat} {s : State} (v : Word) (h : a < s.spaceLen sp) :
    regWrite sp a v s = .ok (s.spaceSet sp a v) := by
  rw [regWrite, if_neg (by omega)]

/-- A run of reads inside the space never fails, and gives the registers in ascending order. -/
theorem readRun_inRange (sp : Space) (s : State) :
    ∀ {a n : Nat}, a + n ≤ s.spaceLen sp →
      readRun sp s a n = .ok ((List.range n).map fun k => s.spaceGet sp (a + k))
  | _, 0, _ => rfl
  | a, n + 1, h => by
    have ih := readRun_inRange sp s (a := a + 1) (n := n) (by omega)
    rw [readRun, regRead_inRange (by omega)]
    simp only [ih, List.range_succ_eq_map, List.map_cons, List.map_map, Nat.add_zero]
    congr 2
    apply List.map_congr_left
    intro k _
    simp only [Function.comp, Nat.add_assoc, Nat.add_comm 1 k]

/-- A read request that passes its checks answers the registers and changes nothing but the transmit port. -/
theorem readRegisters_inRange {sp : Space} {fc : Byte} {addr qty : Word} {s : State}
    (hr : addr.toNat + qty.toNat ≤ s.spaceLen sp) (hq : qty.toNat ≤ s.cfg.maxReadQty) :
    readRegisters sp fc addr qty s =
      .next (transmit (readResponse s.cfg.slaveAddr fc
        ((List.range qty.toNat).map fun k => s.spaceGet sp (addr.toNat + k))) s) := by
  rw [readRegisters, if_neg (by omega), if_neg (by omega), readRun_inRange sp s hr]

/-- A read request that fails a check raises exception 0x02. -/
theorem readRegisters_refused {sp : Space} {fc : Byte} {addr qty : Word} {s : State}
    (h : s.spaceLen sp < addr.toNat + qty.toNat ∨ s.cfg.maxReadQty < qty.toNat) :
    readRegisters sp fc addr qty s = .next (raiseException fc illegalDataAddress s) := by
  unfold readRegisters
  split
  · rfl
  · rw [if_pos (by omega)]

/-! ## Writes -/

/-- The words `vs`, written from address a on, give the reset-error command. -/
def runGivesResetError (a : Nat) (vs : List Word) : Prop :=
  a ≤ 0x109 ∧ 0x109 < a + vs.length ∧ vs.getD (0x109 - a) 0 = 1

/-- The write path inside the holding space: the value stored, and the reset-error effect (rule R222). -/
theorem hrWrite_inRange {a : Nat} {s : State} (v : Word) (h : a < s.cfg.holdingRegCount) :
    hrWrite a v s = .ok (resetErrorEffect a v (s.hrSet a v)) := by
  rw [hrWrite, regWrite_inRange v (by exact h)]
  rfl

/-- What the holding registers read after the reset-error effect. -/
theorem hrGet_resetErrorEffect (a x : Nat) (v : Word) (s : State) :
    (resetErrorEffect a v s).hrGet x = if (a = 0x109 ∧ v = 1) ∧ x = 0x108 then 0 else s.hrGet x := by
  unfold resetErrorEffect resetErrorCmd sysError
  by_cases h : a = 0x109 ∧ v = 1
  · rw [if_pos h, State.hrGet_setLatch, State.hrGet_hrSet]
    simp only [h, and_self, true_and]
  · simp only [h, false_and, if_false]

theorem resetRequired_resetErrorEffect (a : Nat) (v : Word) (s : State) :
    (resetErrorEffect a v s).resetRequired = if a = 0x109 ∧ v = 1 then false else s.resetRequired := by
  unfold resetErrorEffect resetErrorCmd
  split <;> rfl

/-- The reset-error effect changes the holding registers and the latch alone. -/
theorem resetErrorEffect_frame (a : Nat) (v : Word) (s : State) :
    resetErrorEffect a v s =
      { s with hr := (resetErrorEffect a v s).hr, resetRequired := (resetErrorEffect a v s).resetRequired } := by
  unfold resetErrorEffect
  split <;> rfl

/-- The registers a run of writes covers read as written, the others as before, but for SYS_ERROR, which the
reset-error command clears (rules R221 to R223). -/
def runReads (a : Nat) (vs : List Word) (s : State) (x : Nat) : Word :=
  if a ≤ x ∧ x < a + vs.length then vs.getD (x - a) 0 else s.hrGet x

/-- A run of writes inside the holding space never fails; it changes the holding registers and the latch alone. -/
theorem hrWriteRun_inRange :
    ∀ {vs : List Word} {a : Nat} {s : State}, a + vs.length ≤ s.cfg.holdingRegCount →
      ∃ t, hrWriteRun a vs s = .ok t ∧ t = { s with hr := t.hr, resetRequired := t.resetRequired } ∧
        (∀ x, (x = 0x108 → ¬ runGivesResetError a vs) → t.hrGet x = runReads a vs s x) ∧
        (runGivesResetError a vs → t.hrGet 0x108 = 0 ∧ t.resetRequired = false) ∧
        (¬ runGivesResetError a vs → t.resetRequired = s.resetRequired)
  | [], a, s, _ => by
    refine ⟨s, rfl, rfl, fun x _ => ?_, fun h => ?_, fun _ => rfl⟩
    · rw [runReads, if_neg (by simp)]
    · exact absurd h.2.1 (by have := h.1; simp; omega)
  | v :: vs, a, s, h => by
    simp only [List.length_cons] at h
    have hf := resetErrorEffect_frame a v (s.hrSet a v)
    have hg := hrGet_resetErrorEffect a (v := v) (s := s.hrSet a v)
    have hl := resetRequired_resetErrorEffect a v (s.hrSet a v)
    generalize hs1 : resetErrorEffect a v (s.hrSet a v) = s1 at hf hg hl
    have hc : s1.cfg = s.cfg := by rw [hf]; rfl
    obtain ⟨t, ht, hframe, hreads, hcmd, hno⟩ :=
      hrWriteRun_inRange (vs := vs) (a := a + 1) (s := s1) (by rw [hc]; omega)
    have hcons : runGivesResetError a (v :: vs) ↔ (a = 0x109 ∧ v = 1) ∨ runGivesResetError (a + 1) vs := by
      unfold runGivesResetError
      simp only [List.length_cons]
      by_cases ha : a = 0x109
      · subst ha; simp
      · constructor
        · rintro ⟨h1, h2, h3⟩
          have he : 0x109 - a = (0x109 - (a + 1)) + 1 := by omega
          rw [he, List.getD_cons_succ] at h3
          exact .inr ⟨by omega, by omega, h3⟩
        · rintro (⟨h1, _⟩ | ⟨h1, h2, h3⟩)
          · exact absurd h1 ha
          · have he : 0x109 - a = (0x109 - (a + 1)) + 1 := by omega
            rw [he, List.getD_cons_succ]
            exact ⟨by omega, by omega, h3⟩
    refine ⟨t, ?_, ?_, fun x hx => ?_, fun hcm => ?_, fun hn => ?_⟩
    · rw [hrWriteRun, hrWrite_inRange v (by omega)]
      simp only [hs1, ht]
    · rw [hframe, hf]
      rfl
    · have hx' : x = 0x108 → ¬ runGivesResetError (a + 1) vs := fun e h' => hx e (hcons.2 (.inr h'))
      rw [hreads x hx', runReads, runReads, List.length_cons]
      by_cases hxa : x = a
      · subst hxa
        rw [if_neg (by omega), if_pos (by omega), hg, if_neg (by omega), State.hrGet_hrSet_same]
        simp
      · by_cases hin : a + 1 ≤ x ∧ x < a + 1 + vs.length
        · have he : x - a = (x - (a + 1)) + 1 := by omega
          rw [if_pos hin, if_pos (by omega), he, List.getD_cons_succ]
        · have hno' : ¬ ((a = 0x109 ∧ v = 1) ∧ x = 0x108) := fun h' => hx h'.2 (hcons.2 (.inl h'.1))
          rw [if_neg hin, if_neg (by omega), hg, if_neg hno', State.hrGet_hrSet_other _ _ hxa]
    · by_cases h' : runGivesResetError (a + 1) vs
      · exact hcmd h'
      · have ha := (hcons.1 hcm).resolve_right h'
        rw [hno h', hl, if_pos ha, hreads _ (fun _ => h'), runReads, if_neg (by omega), hg, if_pos ⟨ha, rfl⟩]
        exact ⟨rfl, rfl⟩
    · rw [hno (fun h' => hn (hcons.2 (.inr h'))), hl, if_neg (fun h' => hn (hcons.2 (.inl h')))]
      rfl

/-! ## Requests -/

@[simp] theorem dataWords_length (data : List Byte) (n : Nat) : (dataWords data n).length = n := by
  simp [dataWords]

theorem dataWords_getD (data : List Byte) {n k : Nat} (h : k < n) :
    (dataWords data n).getD k 0 = wordAt data (2 * k) := by
  simp [dataWords, List.getD_eq_getElem?_getD, h]

/-- WSR inside the holding space stores through the write path and echoes (rule R220). -/
theorem execWsr_inRange {addr value : Word} {s : State} (h : addr.toNat < s.cfg.holdingRegCount) :
    execWsr addr value s =
      .next (transmit (echoResponse s.cfg.slaveAddr 0x06 addr value)
        (resetErrorEffect addr.toNat value (s.hrSet addr.toNat value))) := by
  rw [execWsr, if_neg (by omega), hrWrite_inRange value h]

/-- WMR that passes its check stores all its words through the write path and echoes (rule R221). -/
theorem execWmr_inRange {addr qty : Word} {bc : Byte} {data : List Byte} {s : State}
    (hr : addr.toNat + qty.toNat ≤ s.cfg.holdingRegCount) (hb : bc.toNat = 2 * qty.toNat) :
    ∃ t, hrWriteRun addr.toNat (dataWords data qty.toNat) s = .ok t ∧
      execWmr addr qty bc data s = .next (transmit (echoResponse s.cfg.slaveAddr 0x10 addr qty) t) := by
  obtain ⟨t, ht, _⟩ := hrWriteRun_inRange (vs := dataWords data qty.toNat) (a := addr.toNat) (s := s) (by simpa)
  refine ⟨t, ht, ?_⟩
  rw [execWmr, if_neg (by omega), ht]

/-- WMR that fails its check raises exception 0x02 (rule R221). -/
theorem execWmr_refused {addr qty : Word} {bc : Byte} {data : List Byte} {s : State}
    (h : s.cfg.holdingRegCount < addr.toNat + qty.toNat ∨ bc.toNat ≠ 2 * qty.toNat) :
    execWmr addr qty bc data s = .next (raiseException 0x10 illegalDataAddress s) := by
  rw [execWmr, if_pos h]

end Sys2Proof.Machine
end

