-- ==== Sys2Proof/Laws/Monitor.lean ====
section
/-! SUPPORT. What each operation of the monitor does, said once: one channel's step, the sampling of all channels, the
output driver, the publication, and the whole cycle (spec rules R260 to R324). -/

namespace Sys2Proof.Machine

open Sys2Proof

/-! ## The configuration a cycle reads -/

/-- The two states have the same parameters and agree on every holding register that no cycle writes. -/
def SameConfig (s t : State) : Prop := t.cfg = s.cfg ∧ ∀ x, x ∉ publishedAddrs → t.hrGet x = s.hrGet x

theorem SameConfig.refl (s : State) : SameConfig s s := ⟨rfl, fun _ _ => rfl⟩

theorem SameConfig.trans {s t u : State} (h : SameConfig s t) (h' : SameConfig t u) : SameConfig s u :=
  ⟨h'.1.trans h.1, fun x hx => (h'.2 x hx).trans (h.2 x hx)⟩

theorem aiValueAddr_mem (i : Fin 4) : aiValueAddr i ∈ publishedAddrs := by revert i; decide
theorem diStatusAddr_mem (i : Fin 4) : diStatusAddr i ∈ publishedAddrs := by revert i; decide
theorem aiEnableAddr_notMem (i : Fin 4) : aiEnableAddr i ∉ publishedAddrs := by revert i; decide
theorem diEnableAddr_notMem (i : Fin 4) : diEnableAddr i ∉ publishedAddrs := by revert i; decide
theorem diActiveLevelAddr_notMem (i : Fin 4) : diActiveLevelAddr i ∉ publishedAddrs := by revert i; decide

/-- Every published address exists in every instance (rule R93). -/
theorem publishedAddrs_lt (p : Params) {x : Nat} (h : x ∈ publishedAddrs) : x < p.holdingRegCount := by
  have : ∀ y ∈ publishedAddrs, y < 0x010A := by decide
  have := this x h
  unfold Params.holdingRegCount
  omega

theorem SameConfig.hrSet (s : State) {a : Nat} (v : Word) (h : a ∈ publishedAddrs) : SameConfig s (s.hrSet a v) :=
  ⟨rfl, fun _ hx => State.hrGet_hrSet_other s v (fun e => hx (e ▸ h))⟩

theorem SameConfig.aiEnabled {s t : State} (h : SameConfig s t) (i : Fin 4) : t.aiEnabled i = s.aiEnabled i := by
  unfold State.aiEnabled
  rw [h.2 _ (aiEnableAddr_notMem i)]

theorem SameConfig.diEnabled {s t : State} (h : SameConfig s t) (i : Fin 4) : t.diEnabled i = s.diEnabled i := by
  unfold State.diEnabled
  rw [h.2 _ (diEnableAddr_notMem i)]

theorem SameConfig.activeHigh {s t : State} (h : SameConfig s t) (i : Fin 4) : t.activeHigh i = s.activeHigh i := by
  unfold State.activeHigh
  rw [h.2 _ (diActiveLevelAddr_notMem i)]

theorem SameConfig.autoReset {s t : State} (h : SameConfig s t) : t.autoReset = s.autoReset := by
  unfold State.autoReset
  rw [h.2 0x4A (by decide)]

theorem SameConfig.classifyDist {s t : State} (h : SameConfig s t) (d : Dist) : t.classifyDist d = s.classifyDist d := by
  unfold State.classifyDist
  rw [h.2 0x44 (by decide), h.2 0x45 (by decide), h.2 0x46 (by decide), h.2 0x47 (by decide)]

theorem SameConfig.distance {s t : State} (h : SameConfig s t) (raw : Raw12) : t.distance raw = s.distance raw := by
  unfold State.distance
  rw [h.1, h.2 0x14 (by decide), h.2 0x15 (by decide)]

/-! ## One channel -/

/-- The six outcomes of a classification (rule R267). -/
theorem classify_cases (z1 z2 z3 z4 : Word) (d : Dist) :
    (Dist.isZero d = true ∧ classify z1 z2 z3 z4 d = (.error, afError)) ∨
      Dist.isZero d = false ∧
        (Dist.le d z1 = true ∧ classify z1 z2 z3 z4 d = (.critical, afCritical) ∨
          Dist.le d z1 = false ∧
            (Dist.le d z2 = true ∧ classify z1 z2 z3 z4 d = (.warning, afWarnHigh) ∨
              Dist.le d z2 = false ∧
                (Dist.le d z3 = true ∧ classify z1 z2 z3 z4 d = (.warning, afWarnLow) ∨
                  Dist.le d z3 = false ∧
                    (Dist.le d z4 = true ∧ classify z1 z2 z3 z4 d = (.ok, afLowAlert) ∨
                      Dist.le d z4 = false ∧ classify z1 z2 z3 z4 d = (.ok, 0))))) := by
  unfold classify
  cases Dist.isZero d <;> cases Dist.le d z1 <;> cases Dist.le d z2 <;> cases Dist.le d z3 <;> cases Dist.le d z4 <;>
    simp

theorem wordMin_toNat (x y : Word) : (wordMin x y).toNat = min x.toNat y.toNat := by
  unfold wordMin
  split <;> omega

theorem wordMax_toNat (x y : Word) : (wordMax x y).toNat = max x.toNat y.toNat := by
  unfold wordMax
  split <;> omega

@[simp] theorem State.ai_setAi (s : State) (i j : Fin 4) (c : AnalogChannel) :
    (s.setAi i c).ai[j] = if j = i then c else s.ai[j] := by
  simp only [State.setAi_ai, Fin.getElem_fin, Vector.getElem_set, Fin.ext_iff, eq_comm]

@[simp] theorem State.di_setDi (s : State) (i j : Fin 4) (c : DigitalChannel) :
    (s.setDi i c).di[j] = if j = i then c else s.di[j] := by
  simp only [State.setDi_di, Fin.getElem_fin, Vector.getElem_set, Fin.ext_iff, eq_comm]

/-- Analog channel i has a good reading of this sample: it is enabled and not classified ERROR (rule R269). -/
def State.goodSample (s : State) (i : Fin 4) (raw : Raw12) : Bool :=
  s.aiEnabled i && (s.classifyDist (s.distance raw)).1 != .error

/-- Analog channel i after a cycle with this sample (rules R262, R268, R269). -/
def State.aiAfter (s : State) (i : Fin 4) (raw : Raw12) : AnalogChannel :=
  if s.aiEnabled i then
    if (s.classifyDist (s.distance raw)).1 = .error then s.ai[i].readError raw (s.classifyDist (s.distance raw))
    else s.ai[i].goodReading raw (s.classifyDist (s.distance raw)) (s.distance raw) (millivolts s.cfg raw)
  else s.ai[i]

/-- Digital channel i after a cycle with this sample (rules R275, R280). -/
def State.diAfter (s : State) (i : Fin 4) (lvl : Bool) (now : Word32) : DigitalChannel :=
  if s.diEnabled i then s.diSampled i lvl now else s.di[i]

/-- An analog step changes its channel and its value register, nothing else. -/
theorem analogStep_spec (i : Fin 4) (raw : Raw12) (s : State) :
    SameConfig s (analogStep i raw s) ∧
      analogStep i raw s = { s with hr := (analogStep i raw s).hr, ai := (analogStep i raw s).ai } ∧
      (∀ j : Fin 4, (analogStep i raw s).ai[j] = if j = i then s.aiAfter i raw else s.ai[j]) ∧
      ∀ x, (analogStep i raw s).hrGet x =
        if x = aiValueAddr i ∧ s.goodSample i raw = true then millivolts s.cfg raw else s.hrGet x := by
  unfold analogStep State.aiAfter State.goodSample
  by_cases he : s.aiEnabled i = true
  · simp only [he, if_true, analogReading, Bool.true_and]
    by_cases hz : (s.classifyDist (s.distance raw)).1 = .error
    · simp only [hz, if_true]
      exact ⟨⟨rfl, fun _ _ => rfl⟩, rfl, fun j => State.ai_setAi s i j _, fun x => by simp⟩
    · simp only [hz, if_false]
      refine ⟨?_, rfl, fun j => State.ai_setAi s i j _, fun x => ?_⟩
      · exact SameConfig.trans (t := s.setAi i _) ⟨rfl, fun _ _ => rfl⟩ (SameConfig.hrSet _ _ (aiValueAddr_mem i))
      · rw [State.hrGet_hrSet]
        simp [hz]
  · simp only [he]
    exact ⟨SameConfig.refl s, rfl, fun j => by simp +contextual, fun x => by simp⟩

/-- A digital step changes its channel and its status register, nothing else. -/
theorem digitalStep_spec (i : Fin 4) (lvl : Bool) (now : Word32) (s : State) :
    SameConfig s (digitalStep i lvl now s) ∧
      digitalStep i lvl now s =
        { s with hr := (digitalStep i lvl now s).hr, di := (digitalStep i lvl now s).di } ∧
      (∀ j : Fin 4, (digitalStep i lvl now s).di[j] = if j = i then s.diAfter i lvl now else s.di[j]) ∧
      ∀ x, (digitalStep i lvl now s).hrGet x =
        if x = diStatusAddr i ∧ s.diEnabled i = true then (if (s.diAfter i lvl now).active then 1 else 0)
        else s.hrGet x := by
  unfold digitalStep State.diAfter
  by_cases he : s.diEnabled i = true
  · simp only [he, if_true]
    refine ⟨?_, rfl, fun j => State.di_setDi s i j _, fun x => ?_⟩
    · exact SameConfig.trans (t := s.setDi i _) ⟨rfl, fun _ _ => rfl⟩ (SameConfig.hrSet _ _ (diStatusAddr_mem i))
    · rw [State.hrGet_hrSet]
      simp
  · simp only [he]
    exact ⟨SameConfig.refl s, rfl, fun j => by simp +contextual, fun x => by simp⟩

theorem SameConfig.aiAfter {s t : State} (h : SameConfig s t) {i : Fin 4} (hi : t.ai[i] = s.ai[i]) (raw : Raw12) :
    t.aiAfter i raw = s.aiAfter i raw := by
  unfold State.aiAfter
  rw [h.aiEnabled, h.classifyDist, h.distance, h.1, hi]

theorem SameConfig.goodSample {s t : State} (h : SameConfig s t) (i : Fin 4) (raw : Raw12) :
    t.goodSample i raw = s.goodSample i raw := by
  unfold State.goodSample
  rw [h.aiEnabled, h.classifyDist, h.distance]

theorem SameConfig.diAfter {s t : State} (h : SameConfig s t) {i : Fin 4} (hi : t.di[i] = s.di[i]) (lvl : Bool)
    (now : Word32) : t.diAfter i lvl now = s.diAfter i lvl now := by
  unfold State.diAfter State.diSampled
  rw [h.diEnabled, h.activeHigh, h.1, hi]

/-! ## All channels -/

theorem aiValueAddr_inj {i j : Fin 4} (h : aiValueAddr i = aiValueAddr j) : i = j := by
  unfold aiValueAddr at h
  omega

theorem diStatusAddr_inj {i j : Fin 4} (h : diStatusAddr i = diStatusAddr j) : i = j := by
  unfold diStatusAddr at h
  omega

/-- The analog steps of a list of different channels: each channel is stepped from the first state. -/
theorem analogSteps_spec (a : Vector Raw12 4) :
    ∀ (l : List (Fin 4)) {s t : State}, l.Nodup → l.foldl (fun t i => analogStep i a[i] t) s = t →
      SameConfig s t ∧ t = { s with hr := t.hr, ai := t.ai } ∧
        (∀ j : Fin 4, t.ai[j] = if j ∈ l then s.aiAfter j a[j] else s.ai[j]) ∧
        (∀ j : Fin 4, t.hrGet (aiValueAddr j) =
          if j ∈ l ∧ s.goodSample j a[j] = true then millivolts s.cfg a[j] else s.hrGet (aiValueAddr j)) ∧
        ∀ x, (∀ j : Fin 4, x ≠ aiValueAddr j) → t.hrGet x = s.hrGet x
  | [], s, _, _, rfl => ⟨SameConfig.refl s, rfl, fun _ => by simp, fun _ => by simp, fun _ _ => rfl⟩
  | i :: l, s, t, hn, ht => by
    obtain ⟨hil, hn⟩ := List.nodup_cons.1 hn
    rw [List.foldl_cons] at ht
    obtain ⟨c1, f1, a1, r1⟩ := analogStep_spec i a[i] s
    generalize analogStep i a[i] s = u at c1 f1 a1 r1 ht
    obtain ⟨c2, f2, a2, r2, o2⟩ := analogSteps_spec a l hn ht
    refine ⟨c1.trans c2, ?_, fun j => ?_, fun j => ?_, fun x hx => ?_⟩
    · rw [f2, f1]
    · rw [a2, a1]
      by_cases hj : j = i
      · subst hj; simp [hil]
      · by_cases hl : j ∈ l
        · rw [if_pos hl, if_pos (by simp [hl]), c1.aiAfter (by rw [a1, if_neg hj])]
        · rw [if_neg hl, if_neg hj, if_neg (by simp [hl, hj])]
    · rw [r2, r1, c1.goodSample, c1.1]
      by_cases hj : j = i
      · subst hj; simp [hil]
      · have : aiValueAddr j ≠ aiValueAddr i := fun h => hj (aiValueAddr_inj h)
        simp [hj, this]
    · rw [o2 x hx, r1, if_neg (fun h => hx i h.1)]

/-- The digital steps of a list of different channels: each channel is stepped from the first state. -/
theorem digitalSteps_spec (d : Vector Bool 4) (now : Word32) :
    ∀ (l : List (Fin 4)) {s t : State}, l.Nodup → l.foldl (fun t i => digitalStep i d[i] now t) s = t →
      SameConfig s t ∧ t = { s with hr := t.hr, di := t.di } ∧
        (∀ j : Fin 4, t.di[j] = if j ∈ l then s.diAfter j d[j] now else s.di[j]) ∧
        (∀ j : Fin 4, t.hrGet (diStatusAddr j) =
          if j ∈ l ∧ s.diEnabled j = true then (if (s.diAfter j d[j] now).active then 1 else 0)
          else s.hrGet (diStatusAddr j)) ∧
        ∀ x, (∀ j : Fin 4, x ≠ diStatusAddr j) → t.hrGet x = s.hrGet x
  | [], s, _, _, rfl => ⟨SameConfig.refl s, rfl, fun _ => by simp, fun _ => by simp, fun _ _ => rfl⟩
  | i :: l, s, t, hn, ht => by
    obtain ⟨hil, hn⟩ := List.nodup_cons.1 hn
    rw [List.foldl_cons] at ht
    obtain ⟨c1, f1, a1, r1⟩ := digitalStep_spec i d[i] now s
    generalize digitalStep i d[i] now s = u at c1 f1 a1 r1 ht
    obtain ⟨c2, f2, a2, r2, o2⟩ := digitalSteps_spec d now l hn ht
    refine ⟨c1.trans c2, ?_, fun j => ?_, fun j => ?_, fun x hx => ?_⟩
    · rw [f2, f1]
    · rw [a2, a1]
      by_cases hj : j = i
      · subst hj; simp [hil]
      · by_cases hl : j ∈ l
        · rw [if_pos hl, if_pos (by simp [hl]), c1.diAfter (by rw [a1, if_neg hj])]
        · rw [if_neg hl, if_neg hj, if_neg (by simp [hl, hj])]
    · rw [r2, r1, c1.diEnabled]
      by_cases hj : j = i
      · subst hj; simp [hil]
      · have hne : diStatusAddr j ≠ diStatusAddr i := fun h => hj (diStatusAddr_inj h)
        rw [c1.diAfter (by rw [a1, if_neg hj])]
        simp [hj, hne]
    · rw [o2 x hx, r1, if_neg (fun h => hx i h.1)]

theorem channels_nodup : channels.Nodup := by decide

theorem mem_channels (i : Fin 4) : i ∈ channels := by revert i; decide

/-- The sampling half of a cycle: every channel is stepped from the state at the start of the cycle. -/
theorem sampleChannels_spec {a : Vector Raw12 4} {d : Vector Bool 4} {s t : State} (ht : sampleChannels a d s = t) :
    SameConfig s t ∧ t = { s with hr := t.hr, ai := t.ai, di := t.di } ∧
      (∀ j : Fin 4, t.ai[j] = s.aiAfter j a[j]) ∧
      (∀ j : Fin 4, t.di[j] = s.diAfter j d[j] s.uptimeMs) ∧
      (∀ j : Fin 4, t.hrGet (aiValueAddr j) =
        if s.goodSample j a[j] = true then millivolts s.cfg a[j] else s.hrGet (aiValueAddr j)) ∧
      (∀ j : Fin 4, t.hrGet (diStatusAddr j) =
        if s.diEnabled j = true then (if (s.diAfter j d[j] s.uptimeMs).active then 1 else 0)
        else s.hrGet (diStatusAddr j)) ∧
      ∀ x, (∀ j : Fin 4, x ≠ aiValueAddr j) → (∀ j : Fin 4, x ≠ diStatusAddr j) → t.hrGet x = s.hrGet x := by
  have hne : ∀ i j : Fin 4, aiValueAddr i ≠ diStatusAddr j := by decide
  unfold sampleChannels at ht
  obtain ⟨u, hu⟩ : ∃ u, sampleAnalog a s = u := ⟨_, rfl⟩
  rw [hu] at ht
  obtain ⟨c1, f1, a1, r1, o1⟩ := analogSteps_spec a channels channels_nodup hu
  obtain ⟨c2, f2, a2, r2, o2⟩ := digitalSteps_spec d s.uptimeMs channels channels_nodup ht
  have hdi : ∀ j : Fin 4, u.di[j] = s.di[j] := fun j => by rw [f1]
  have hai : ∀ j : Fin 4, t.ai[j] = u.ai[j] := fun j => by rw [f2]
  refine ⟨c1.trans c2, ?_, fun j => ?_, fun j => ?_, fun j => ?_, fun j => ?_, fun x hx hx' => ?_⟩
  · rw [f2, f1]
  · rw [hai, a1, if_pos (mem_channels j)]
  · rw [a2, if_pos (mem_channels j), c1.diAfter (hdi j)]
  · rw [o2 _ (fun i => hne j i), r1]
    simp [mem_channels]
  · rw [r2, c1.diEnabled, c1.diAfter (hdi j), o1 _ (fun i => (hne i j).symm)]
    simp [mem_channels]
  · rw [o2 x hx', o1 x hx]

/-! ## The deciding half -/

/-- The output driver changes the outputs and the latch alone. -/
theorem driveOutputs_frame (agg : Status) (s : State) :
    driveOutputs agg s =
      { s with
        relayOut := (driveOutputs agg s).relayOut, indOut := (driveOutputs agg s).indOut,
        resetRequired := (driveOutputs agg s).resetRequired } := by
  cases agg <;> simp only [driveOutputs] <;> (try split) <;> (try split) <;> rfl

/-- A CRITICAL aggregate asserts both outputs and sets the latch (rule R301). -/
theorem driveOutputs_critical (s : State) :
    (driveOutputs .critical s).relayOut = true ∧ (driveOutputs .critical s).indOut = true ∧
      (driveOutputs .critical s).resetRequired = true :=
  ⟨rfl, rfl, rfl⟩

/-- An OK aggregate clears the latch under auto-reset, and the outputs when the latch is then clear (rule R302). -/
theorem driveOutputs_ok (s : State) :
    (driveOutputs .ok s).resetRequired = (s.resetRequired && !s.autoReset) ∧
      (driveOutputs .ok s).relayOut = (s.relayOut && (s.resetRequired && !s.autoReset)) ∧
      (driveOutputs .ok s).indOut = (s.indOut && (s.resetRequired && !s.autoReset)) := by
  simp only [driveOutputs]
  cases h1 : s.autoReset <;> cases h2 : s.resetRequired <;> simp [h2]

/-- Any other aggregate changes nothing (rule R303). -/
theorem driveOutputs_other {agg : Status} (s : State) (h1 : agg ≠ .critical) (h2 : agg ≠ .ok) :
    driveOutputs agg s = s := by
  cases agg <;> first | rfl | contradiction

/-- What the holding registers read after a publication (rules R320 to R324). -/
theorem hrGet_publish (agg : Status) (s : State) (x : Nat) :
    (publish agg s).hrGet x =
      if x = 0x5 then s.errorMask
      else if x = 0x4 then (if s.relayOut then 1 else 0)
      else if x = 0x3 then s.proxAlert
      else if x = 0x2 then s.zoneStatus
      else if x = 0x0 then agg.code
      else s.hrGet x := by
  simp only [publish, State.hrGet_hrSet]

/-- A publication changes the holding registers alone. -/
theorem publish_frame (agg : Status) (s : State) : publish agg s = { s with hr := (publish agg s).hr } := by
  apply State.ext <;> simp [publish]

theorem SameConfig.publish (agg : Status) (s : State) : SameConfig s (publish agg s) := by
  refine ⟨by rw [publish_frame], fun x hx => ?_⟩
  have h : x ≠ 0x5 ∧ x ≠ 0x4 ∧ x ≠ 0x3 ∧ x ≠ 0x2 ∧ x ≠ 0x0 := by
    refine ⟨?_, ?_, ?_, ?_, ?_⟩ <;> rintro rfl <;> exact hx (by decide)
  rw [hrGet_publish, if_neg h.1, if_neg h.2.1, if_neg h.2.2.1, if_neg h.2.2.2.1, if_neg h.2.2.2.2]

/-- The state whose values a cycle publishes: the channels sampled, the aggregate counted, the outputs driven. -/
def decided (agg : Status) (s : State) : State := driveOutputs agg (countAggregate agg s)

/-- Counting and driving change the counters, the outputs and the latch alone. -/
theorem decided_frame (agg : Status) (s : State) :
    decided agg s =
      { s with
        warnCount := if agg = .warning then s.warnCount + 1 else s.warnCount
        critCount := if agg = .critical then s.critCount + 1 else s.critCount
        emergCount := if agg = .emergency then s.emergCount + 1 else s.emergCount
        relayOut := (decided agg s).relayOut, indOut := (decided agg s).indOut,
        resetRequired := (decided agg s).resetRequired } :=
  driveOutputs_frame agg (countAggregate agg s)

theorem SameConfig.decided (agg : Status) (s : State) : SameConfig s (decided agg s) := by
  refine ⟨by rw [decided_frame], fun x _ => State.hrGet_congr ?_ ?_ x⟩ <;> rw [decided_frame]

theorem SameConfig.setCheck (agg : Status) (now : Word32) (s : State) : SameConfig s (s.setCheck agg now) :=
  ⟨rfl, fun _ _ => rfl⟩

/-- A whole cycle: its aggregate, and the state after it in terms of the sampled one. -/
theorem runCycle_eq (a : Vector Raw12 4) (d : Vector Bool 4) (s : State) :
    runCycle a d s =
      (publish (sampleChannels a d s).aggregate
        (decided (sampleChannels a d s).aggregate (sampleChannels a d s))).setCheck
        (sampleChannels a d s).aggregate s.uptimeMs := rfl

/-- A cycle keeps the parameters and every holding register that it does not publish (rules R320, R332). -/
theorem runCycle_sameConfig (a : Vector Raw12 4) (d : Vector Bool 4) (s : State) : SameConfig s (runCycle a d s) := by
  rw [runCycle_eq]
  exact (((sampleChannels_spec (a := a) (d := d) (s := s) rfl).1.trans (SameConfig.decided _ _)).trans (SameConfig.publish _ _)).trans
    (SameConfig.setCheck _ _ _)

/-- A cycle leaves the receiver, the other spaces, the time base and the ports as they are (rule R332). -/
theorem runCycle_frame (a : Vector Raw12 4) (d : Vector Bool 4) (s : State) :
    runCycle a d s =
      { s with
        hr := (runCycle a d s).hr, ai := (runCycle a d s).ai, di := (runCycle a d s).di,
        sysStatus := (runCycle a d s).sysStatus, lastCheck := s.uptimeMs,
        warnCount := (runCycle a d s).warnCount, critCount := (runCycle a d s).critCount,
        emergCount := (runCycle a d s).emergCount, resetRequired := (runCycle a d s).resetRequired,
        relayOut := (runCycle a d s).relayOut, indOut := (runCycle a d s).indOut } := by
  have h := (sampleChannels_spec (a := a) (d := d) (s := s) rfl).2.1
  rw [runCycle_eq]
  generalize (sampleChannels a d s).aggregate = agg
  generalize sampleChannels a d s = u at h
  have hp := publish_frame agg (decided agg u)
  have hd := decided_frame agg u
  generalize publish agg (decided agg u) = v at hp
  generalize decided agg u = w at hp hd
  apply State.ext
  all_goals first | rfl | simp only [State.setCheck_cfg, State.setCheck_ir, State.setCheck_coil,
    State.setCheck_discIn, State.setCheck_rxBuf, State.setCheck_estop, State.setCheck_uptimeMs,
    State.setCheck_inputs, State.setCheck_txLog, State.setCheck_txCount]; rw [hp, hd, h]

/-- The channels after a cycle are the sampled ones. -/
theorem runCycle_ai (a : Vector Raw12 4) (d : Vector Bool 4) (s : State) (j : Fin 4) :
    (runCycle a d s).ai[j] = s.aiAfter j a[j] := by
  rw [← (sampleChannels_spec (a := a) (d := d) (s := s) rfl).2.2.1 j, runCycle_eq, State.setCheck_ai, publish_frame, decided_frame]

theorem runCycle_di (a : Vector Raw12 4) (d : Vector Bool 4) (s : State) (j : Fin 4) :
    (runCycle a d s).di[j] = s.diAfter j d[j] s.uptimeMs := by
  rw [← (sampleChannels_spec (a := a) (d := d) (s := s) rfl).2.2.2.1 j, runCycle_eq, State.setCheck_di, publish_frame, decided_frame]

/-- What a cycle notes, counts, drives and publishes, in terms of the sampled state and its aggregate. -/
theorem runCycle_results {a : Vector Raw12 4} {d : Vector Bool 4} {s u : State} (hu : sampleChannels a d s = u) :
    (runCycle a d s).sysStatus = u.aggregate ∧ (runCycle a d s).lastCheck = s.uptimeMs ∧
      (runCycle a d s).warnCount = (if u.aggregate = .warning then u.warnCount + 1 else u.warnCount) ∧
      (runCycle a d s).critCount = (if u.aggregate = .critical then u.critCount + 1 else u.critCount) ∧
      (runCycle a d s).emergCount = (if u.aggregate = .emergency then u.emergCount + 1 else u.emergCount) ∧
      (runCycle a d s).relayOut = (decided u.aggregate u).relayOut ∧
      (runCycle a d s).indOut = (decided u.aggregate u).indOut ∧
      (runCycle a d s).resetRequired = (decided u.aggregate u).resetRequired ∧
      ∀ x, (runCycle a d s).hrGet x = (publish u.aggregate (decided u.aggregate u)).hrGet x := by
  subst hu
  rw [runCycle_eq]
  generalize sampleChannels a d s = u
  have hp := publish_frame u.aggregate (decided u.aggregate u)
  have hd := decided_frame u.aggregate u
  refine ⟨rfl, rfl, ?_, ?_, ?_, ?_, ?_, ?_, fun x => State.hrGet_setCheck _ _ _ x⟩
  · rw [State.setCheck_warnCount, hp, hd]
  · rw [State.setCheck_critCount, hp, hd]
  · rw [State.setCheck_emergCount, hp, hd]
  · rw [State.setCheck_relayOut, hp]
  · rw [State.setCheck_indOut, hp]
  · rw [State.setCheck_resetRequired, hp]

/-! ## The aggregate -/

/-- The precedence chain, case by case (rule R285). -/
theorem precedence_cases (ss : List Status) :
    (Status.critical ∈ ss → precedence ss = .critical) ∧
      (Status.critical ∉ ss → Status.warning ∈ ss → precedence ss = .warning) ∧
      (Status.critical ∉ ss → Status.warning ∉ ss → Status.error ∈ ss → precedence ss = .error) ∧
      (Status.critical ∉ ss → Status.warning ∉ ss → Status.error ∉ ss → precedence ss = .ok) := by
  unfold precedence
  refine ⟨fun h => by simp [h], fun h1 h2 => by simp [h1, h2], fun h1 h2 h3 => by simp [h1, h2, h3],
    fun h1 h2 h3 => by simp [h1, h2, h3]⟩

/-- No cycle's aggregate is EMERGENCY (rule R330). -/
theorem precedence_ne_emergency (ss : List Status) : precedence ss ≠ .emergency := by
  unfold precedence
  split
  · simp
  · split
    · simp
    · split <;> simp

/-- A status is among those of a cycle when some enabled channel has it (rule R285). -/
theorem State.mem_statuses (s : State) (st : Status) :
    st ∈ s.statuses ↔ (∃ i : Fin 4, s.aiEnabled i = true ∧ s.ai[i].status = st) ∨
      ∃ i : Fin 4, s.diEnabled i = true ∧ digitalStatus s.di[i].active = st := by
  simp only [State.statuses, List.mem_append, List.mem_map, List.mem_filter, mem_channels, true_and]

/-- The aggregate depends on the configuration and the channels alone (rule R285). -/
theorem State.aggregate_congr {s t : State} (h : SameConfig s t) (ha : ∀ j : Fin 4, t.ai[j] = s.ai[j])
    (hd : ∀ j : Fin 4, t.di[j] = s.di[j]) : t.aggregate = s.aggregate := by
  have e1 : t.aiEnabled = s.aiEnabled := funext h.aiEnabled
  have e2 : t.diEnabled = s.diEnabled := funext h.diEnabled
  simp only [State.aggregate, State.statuses, ha, hd, e1, e2]

/-- A cycle's aggregate is that of the channels it leaves. -/
theorem runCycle_aggregate (a : Vector Raw12 4) (d : Vector Bool 4) (s : State) :
    (runCycle a d s).aggregate = (sampleChannels a d s).aggregate := by
  obtain ⟨u, hu⟩ : ∃ u, sampleChannels a d s = u := ⟨_, rfl⟩
  obtain ⟨v, hv⟩ : ∃ v, runCycle a d s = v := ⟨_, rfl⟩
  have ha := runCycle_ai a d s
  have hd := runCycle_di a d s
  have hc := runCycle_sameConfig a d s
  obtain ⟨c, _, ua, ud, _⟩ := sampleChannels_spec hu
  rw [hu, hv]
  rw [hv] at ha hd hc
  refine State.aggregate_congr ⟨hc.1.trans c.1.symm, fun x hx => (hc.2 x hx).trans (c.2 x hx).symm⟩ (fun j => ?_) fun j => ?_
  · rw [ha, ua]
  · rw [hd, ud]

/-- What the holding registers read after a cycle, in terms of the sampled state (rules R270, R280, R320). -/
theorem runCycle_hrGet {a : Vector Raw12 4} {d : Vector Bool 4} {s u : State} (hu : sampleChannels a d s = u) (x : Nat) :
    (runCycle a d s).hrGet x =
      if x = 0x5 then u.errorMask
      else if x = 0x4 then (if (runCycle a d s).relayOut then 1 else 0)
      else if x = 0x3 then u.proxAlert
      else if x = 0x2 then u.zoneStatus
      else if x = 0x0 then u.aggregate.code
      else u.hrGet x := by
  have hr := (runCycle_results hu).2.2.2.2.2.1
  have hx := (runCycle_results hu).2.2.2.2.2.2.2.2 x
  obtain ⟨v, hv⟩ : ∃ v, runCycle a d s = v := ⟨_, rfl⟩
  rw [hv] at hr hx ⊢
  have hc := SameConfig.decided u.aggregate u
  have hf := decided_frame u.aggregate u
  obtain ⟨w, hw⟩ : ∃ w, decided u.aggregate u = w := ⟨_, rfl⟩
  rw [hw] at hr hx hc hf
  have hai : w.ai = u.ai := by rw [hf]
  have e1 : w.aiEnabled = u.aiEnabled := funext hc.aiEnabled
  have e2 : w.hrGet 0x48 = u.hrGet 0x48 := hc.2 _ (by decide)
  have hg : w.hrGet x = u.hrGet x := State.hrGet_congr (by rw [hf]) (by rw [hf]) x
  rw [hx, hr, hrGet_publish, hg]
  simp only [State.errorMask, State.proxAlert, State.zoneStatus, hai, e1,
    show w.proximate = u.proximate from by funext i; simp only [State.proximate, hai, e1, e2],
    show w.inError = u.inError from by funext i; simp only [State.inError, hai, e1]]

/-- What an aggregate does to an output or, with `b` the latch itself, to the latch (rules R301 to R303). -/
def drivenTo (agg : Status) (b keep : Bool) : Bool :=
  if agg = .critical then true else if agg = .ok then b && keep else b

theorem decided_outputs (agg : Status) (s : State) :
    (decided agg s).relayOut = drivenTo agg s.relayOut (s.resetRequired && !s.autoReset) ∧
      (decided agg s).indOut = drivenTo agg s.indOut (s.resetRequired && !s.autoReset) ∧
      (decided agg s).resetRequired = drivenTo agg s.resetRequired (!s.autoReset) := by
  have ha : (countAggregate agg s).autoReset = s.autoReset := rfl
  have hok := driveOutputs_ok (countAggregate agg s)
  rw [ha] at hok
  cases agg with
  | ok => exact ⟨hok.2.1, hok.2.2, hok.1⟩
  | _ => exact ⟨rfl, rfl, rfl⟩

/-- The whole cycle, said once: `u` is the sampled state and `v` the state after the cycle (rules R260 to R324).
Both are variables, so that no proof compares the cycle's own terms. -/
theorem runCycle_spec {a : Vector Raw12 4} {d : Vector Bool 4} {s u v : State} (hu : sampleChannels a d s = u)
    (hv : runCycle a d s = v) :
    SameConfig s v ∧
      v = { s with
        hr := v.hr, ai := v.ai, di := v.di, sysStatus := v.sysStatus, lastCheck := s.uptimeMs,
        warnCount := v.warnCount, critCount := v.critCount, emergCount := v.emergCount,
        resetRequired := v.resetRequired, relayOut := v.relayOut, indOut := v.indOut } ∧
      (∀ j : Fin 4, v.ai[j] = s.aiAfter j a[j]) ∧ (∀ j : Fin 4, v.di[j] = s.diAfter j d[j] s.uptimeMs) ∧
      (v.sysStatus = u.aggregate ∧ v.aggregate = u.aggregate) ∧
      v.warnCount = (if v.sysStatus = .warning then s.warnCount + 1 else s.warnCount) ∧
      v.critCount = (if v.sysStatus = .critical then s.critCount + 1 else s.critCount) ∧
      v.emergCount = s.emergCount ∧
      v.relayOut = drivenTo v.sysStatus s.relayOut (s.resetRequired && !s.autoReset) ∧
      v.indOut = drivenTo v.sysStatus s.indOut (s.resetRequired && !s.autoReset) ∧
      v.resetRequired = drivenTo v.sysStatus s.resetRequired (!s.autoReset) ∧
      ∀ x, v.hrGet x =
        if x = 0x5 then u.errorMask
        else if x = 0x4 then (if v.relayOut then 1 else 0)
        else if x = 0x3 then u.proxAlert
        else if x = 0x2 then u.zoneStatus
        else if x = 0x0 then u.aggregate.code
        else u.hrGet x := by
  have h1 := runCycle_sameConfig a d s
  have h2 := runCycle_frame a d s
  have h3 := runCycle_ai a d s
  have h4 := runCycle_di a d s
  have h5 := runCycle_aggregate a d s
  obtain ⟨r1, r2, r3, r4, r5, r6, r7, r8, -⟩ := runCycle_results hu
  have h6 := runCycle_hrGet hu
  rw [hv] at h1 h2 h3 h4 h5 h6 r1 r2 r3 r4 r5 r6 r7 r8
  rw [hu] at h5
  obtain ⟨c, f, -⟩ := sampleChannels_spec hu
  obtain ⟨o1, o2, o3⟩ := decided_outputs u.aggregate u
  have ha : u.autoReset = s.autoReset := c.autoReset
  have fs : u.warnCount = s.warnCount ∧ u.critCount = s.critCount ∧ u.emergCount = s.emergCount ∧
      u.relayOut = s.relayOut ∧ u.indOut = s.indOut ∧ u.resetRequired = s.resetRequired := by
    rw [f]; exact ⟨rfl, rfl, rfl, rfl, rfl, rfl⟩
  obtain ⟨f1, f2, f3, f4, f5, f6⟩ := fs
  rw [ha, f6] at o1 o2 o3
  rw [f4] at o1
  rw [f5] at o2
  refine ⟨h1, h2, h3, h4, ⟨r1, h5⟩, ?_, ?_, ?_, ?_, ?_, ?_, h6⟩
  · rw [r3, r1, f1]
  · rw [r4, r1, f2]
  · rw [r5, if_neg (show u.aggregate ≠ .emergency from precedence_ne_emergency _), f3]
  · rw [r6, r1, o1]
  · rw [r7, r1, o2]
  · rw [r8, r1, o3]

end Sys2Proof.Machine
end

