-- ==== Sys2Proof/Laws/PerInstr.lean ====
section
/-! SUPPORT. The family `FrameLength`: a well-formed request's frame has the length that the receiver expects from its
first bytes (spec rule R132). -/

namespace Sys2Proof.Laws

open Sys2Proof

/-- The receiver's expected length of the encoded request is the frame's own length. -/
def FrameLength.Statement (i : Instr) : Prop :=
  i.wf = true → ∀ slave, expectedLen (encode slave i) = some i.frameLen

theorem FrameLength.rhr (addr qty : Word) : FrameLength.Statement (.rhr addr qty) := fun h slave =>
  expectedLen_eight (by rw [encode_length slave h, Instr.frameLen]; omega) (by rw [byteAt_encode_one, Instr.code]; decide)

theorem FrameLength.rir (addr qty : Word) : FrameLength.Statement (.rir addr qty) := fun h slave =>
  expectedLen_eight (by rw [encode_length slave h, Instr.frameLen]; omega) (by rw [byteAt_encode_one, Instr.code]; decide)

theorem FrameLength.wsr (addr value : Word) : FrameLength.Statement (.wsr addr value) := fun h slave =>
  expectedLen_eight (by rw [encode_length slave h, Instr.frameLen]; omega) (by rw [byteAt_encode_one, Instr.code]; decide)

theorem FrameLength.wmr (addr qty : Word) (bc : Byte) (data : List Byte) :
    FrameLength.Statement (.wmr addr qty bc data) := fun h slave => by
  rw [expectedLen_wmr (by rw [encode_length slave h, Instr.frameLen]; omega) (byteAt_encode_one _ _)]
  simp [encode, withCrc, Instr.payload, wordBytes, Instr.frameLen]

theorem FrameLength.illegal (fc b2 b3 b4 b5 : Byte) : FrameLength.Statement (.illegal fc b2 b3 b4 b5) := fun h slave => by
  refine expectedLen_eight (by rw [encode_length slave h, Instr.frameLen]; omega) ?_
  rw [byteAt_encode_one, Instr.code]
  rintro rfl
  simp [Instr.wf, supportedCode] at h

end Sys2Proof.Laws
end

