-- ==== Sys2Proof/Laws/Step.lean ====
section
/-! SUPPORT. What a step can do, said once: the inversion of `step` by the event it takes, of the receiver's step
by what becomes of the byte, and of a run by its first step (spec rules R12, R161, R162, R170 to R173). -/

namespace Sys2Proof.Machine

open Sys2Proof

/-- A byte that completes no frame is kept, or discarded with a full buffer; one that completes a frame runs the
frame's instruction, or has it dropped. -/
theorem onRxByte_cases {b : Byte} {s t : State} (h : onRxByte b s = .next t) :
    (s.rxBuf.length < s.cfg.frameBufSize ∧ expectedLen (s.rxBuf ++ [b]) ≠ some (s.rxBuf.length + 1) ∧
        t = s.setRxBuf (s.rxBuf ++ [b])) ∨
      (s.cfg.frameBufSize ≤ s.rxBuf.length ∧ t = s.setRxBuf []) ∨
      (s.rxBuf.length < s.cfg.frameBufSize ∧ expectedLen (s.rxBuf ++ [b]) = some (s.rxBuf.length + 1) ∧
        ((∃ i, decode s.cfg.slaveAddr (s.rxBuf ++ [b]) = .ok i ∧ exec i (s.setRxBuf []) = .next t) ∨
          ∃ e, decode s.cfg.slaveAddr (s.rxBuf ++ [b]) = .error e ∧ t = s.setRxBuf [])) := by
  unfold onRxByte at h
  split at h
  · next hlen =>
    split at h
    · next hexp =>
      refine .inr (.inr ⟨hlen, hexp, ?_⟩)
      unfold processFrame at h
      rw [State.setRxBuf_cfg] at h
      cases hd : decode s.cfg.slaveAddr (s.rxBuf ++ [b]) with
      | ok i => rw [hd] at h; exact .inl ⟨i, rfl, h⟩
      | error e => rw [hd] at h; cases h; exact .inr ⟨e, rfl, rfl⟩
    · next hexp => cases h; exact .inl ⟨hlen, hexp, rfl⟩
  · next hlen => cases h; exact .inr (.inl ⟨by omega, rfl⟩)

/-- The step of a cycle event (rule R260). -/
theorem step_cycle {s : State} {a : Vector Raw12 4} {d : Vector Bool 4} {es : List Event}
    (h : s.inputs = .cycle a d :: es) : step s = .next (runCycle a d (s.setInputs es)) := by
  rw [step, stepEvent, h]
  rfl

/-- A step takes the next event, if there is one. -/
theorem step_cases {s t : State} (h : step s = .next t) :
    (s.inputs = [] ∧ t = s) ∨
      (∃ b es, s.inputs = .rxByte b :: es ∧ onRxByte b (s.setInputs es) = .next t) ∨
      (∃ es, s.inputs = .rxError :: es ∧ t = (s.setInputs es).setRxBuf []) ∨
      (∃ es, s.inputs = .rxSilence :: es ∧ s.cfg.silenceReset = true ∧ t = (s.setInputs es).setRxBuf []) ∨
      (∃ a d es, s.inputs = .cycle a d :: es ∧ t = runCycle a d (s.setInputs es)) ∨
      (∃ es, s.inputs = .msTick :: es ∧ t = (s.setInputs es).setUptime (s.uptimeMs + 1)) ∨
      (∃ es, s.inputs = .reset :: es ∧ t = onReset (s.setInputs es)) := by
  unfold step stepEvent at h
  split at h
  · next hi => cases h; exact .inl ⟨hi, rfl⟩
  · next e es hi =>
    refine .inr ?_
    cases e with
    | rxByte b => exact .inl ⟨b, es, hi, h⟩
    | rxError => exact .inr (.inl ⟨es, hi, (Host.Outcome.next.inj h).symm⟩)
    | rxSilence =>
      by_cases hs : s.cfg.silenceReset = true
      · have he : onRxSilence (s.setInputs es) = .next ((s.setInputs es).setRxBuf []) := if_pos hs
        exact .inr (.inr (.inl ⟨es, hi, hs, Host.Outcome.next.inj (h.symm.trans he)⟩))
      · have he : onRxSilence (s.setInputs es) = .refused .noSilenceTimer := if_neg hs
        cases h.symm.trans he
    | cycle a d => exact .inr (.inr (.inr (.inl ⟨a, d, es, hi, (Host.Outcome.next.inj h).symm⟩)))
    | msTick => exact .inr (.inr (.inr (.inr (.inl ⟨es, hi, (Host.Outcome.next.inj h).symm⟩))))
    | reset => exact .inr (.inr (.inr (.inr (.inr ⟨es, hi, (Host.Outcome.next.inj h).symm⟩))))

/-! ## Runs -/

/-- In any core, a run of one more step that answers a next state takes a step first. -/
theorem run_succ_core {M : Host.Core} {n : Nat} {s t : M.State} (h : M.run (n + 1) s = .next t) :
    ∃ u, M.step s = .next u ∧ M.run n u = .next t := by
  unfold Host.Core.run at h
  cases hs : M.step s with
  | next u => rw [hs] at h; exact ⟨u, rfl, h⟩
  | fault _ => rw [hs] at h; cases h
  | refused _ => rw [hs] at h; cases h

/-- A run of one more step is a step that answers a next state and a run from there. -/
theorem run_succ {n : Nat} {s t : State} (h : Host.Core.run Sys2Proof.core (n + 1) s = .next t) :
    ∃ u, step s = .next u ∧ Host.Core.run Sys2Proof.core n u = .next t :=
  run_succ_core h

end Sys2Proof.Machine
end

