-- ==== Sys2Proof/Tests/Slice0.lean ====
section
/-! SUPPORT. The model's own tests, their expected results from spec/ (95_test_vectors.md and the rules' examples): the
refusals of WellFormed, decoding of words written out from the encoding tables, one or two steps per instruction and
event. Then, for every statement with hypotheses, a concrete state and operands that meet them. -/

set_option Elab.async false

namespace Sys2Proof.Tests

open Sys2Proof Sys2Proof.Machine

/-! ## Helpers -/

/-- The outcome is a next state with the property. -/
def reaches (o : Host.Outcome State Fault Refusal) (p : State → Prop) [DecidablePred p] : Bool :=
  match o with
  | .next t => decide (p t)
  | .fault _ => false
  | .refused _ => false

theorem of_reaches {o : Host.Outcome State Fault Refusal} {p : State → Prop} [DecidablePred p]
    (h : reaches o p = true) : ∃ t, o = .next t ∧ p t := by
  cases o with
  | next t => exact ⟨t, rfl, of_decide_eq_true h⟩
  | fault _ => cases h
  | refused _ => cases h

/-- Reset, then these registers written. -/
def withRegs (l : List (Nat × Word)) : State := l.foldl (fun s c => s.hrSet c.1 c.2) State.reset

/-- Reset, with a partial frame received and events to come. -/
def receiving (p : Params) (buf : List Byte) (es : List Event) : State :=
  { State.resetOf p with rxBuf := buf, inputs := es }

/-- An instance with the smallest frame buffer and a silence timer. -/
def smallParams : Params := { Config.vectorParams with frameBufExtra := 0, silenceReset := true }

/-- The responses sent so far. -/
def sent (s : State) : List (List Byte) := s.txLog.map TxRecord.sent

/-- Samples: every analog channel inactive, digital channel 0 at the level given, the others low. -/
def quiet : Vector Raw12 4 := Vector.replicate 4 0
def levels (b : Bool) : Vector Bool 4 := #v[b, false, false, false]

/-- A state with digital channel 0 enabled, active-high and triggered, its latch, outputs and next event given. -/
def triggered (latch out : Bool) (autoReset : Word) (e : Event) : State :=
  { (withRegs [(0x26, 1), (0x2A, 1), (0x4A, autoReset)]) with
    di := State.reset.di.set 0 { DigitalChannel.reset with level := true, prevLevel := true, active := true, flags := 2 }
    resetRequired := latch, relayOut := out, indOut := out, uptimeMs := 1000, inputs := [e] }

/-! ## WellFormed refuses -/

theorem test_wf_illegal_with_supported_code : (Instr.illegal 0x03 0 0 0 0).wf = false := by decide
theorem test_wf_wmr_data_not_byte_count : (Instr.wmr 0x44 1 2 [0x01]).wf = false := by decide
theorem test_fits_too_long : (Instr.wmr 0 124 248 (List.replicate 248 0)).fits Config.vectorParams = false := by
  decide +kernel

/-! ## Decoding: frames written out from rules R122 and R123, with the CRC bytes of 95_test_vectors.md -/

theorem test_decode_rhr : decode 0x01 [0x01, 0x03, 0x00, 0x10, 0x00, 0x04, 0x45, 0xCC] = .ok (.rhr 0x0010 4) := by
  decide +kernel
theorem test_decode_rir : decode 0x01 [0x01, 0x04, 0x00, 0x0F, 0x00, 0x01, 0x01, 0xC9] = .ok (.rir 0x000F 1) := by
  decide +kernel
theorem test_decode_wsr : decode 0x01 [0x01, 0x06, 0x00, 0x44, 0x01, 0xF4, 0xC9, 0xC8] = .ok (.wsr 0x0044 500) := by
  decide +kernel
theorem test_decode_wmr :
    decode 0x01 [0x01, 0x10, 0x00, 0x44, 0x00, 0x02, 0x04, 0x01, 0xF4, 0x03, 0xE8, 0xB6, 0xDC] =
      .ok (.wmr 0x0044 2 4 [0x01, 0xF4, 0x03, 0xE8]) := by decide +kernel
theorem test_decode_illegal :
    decode 0x01 [0x01, 0x01, 0x00, 0x00, 0x00, 0x01, 0xFD, 0xCA] = .ok (.illegal 0x01 0 0 0 1) := by decide +kernel
theorem test_decode_bad_crc :
    decode 0x01 [0x01, 0x03, 0x00, 0x00, 0x00, 0x0A, 0xC5, 0xCE] = .error .badCrc := by decide +kernel
theorem test_decode_other_slave :
    decode 0x01 [0x02, 0x03, 0x00, 0x10, 0x00, 0x04, 0x45, 0xFF] = .error .otherSlave := by decide +kernel
/-- Rule R126's check value. -/
theorem test_crc_check_value : crc16 [0x31, 0x32, 0x33, 0x34, 0x35, 0x36, 0x37, 0x38, 0x39] = 0x4B37 := by
  decide +kernel
theorem test_table_word_rhr : decodeTableWord 40 0x0400100003 = some (.rhr 0x0010 4) := by decide +kernel

/-! ## Requests -/

/-- Rule R181: the whole request, from its table word to its response. -/
theorem test_rhr_four_registers :
    ∃ t, step (State.reset.withFetchWord 40 0x0400100003) = .next t ∧
      sent t = [[0x01, 0x03, 0x08, 0, 0, 0, 0, 0, 0, 0, 0, 0x95, 0xD7]] := of_reaches (by decide +kernel)
/-- Rule R200: 0xFFFF + 1 is not taken modulo 2^16. -/
theorem test_rhr_no_wrap :
    ∃ t, exec (.rhr 0xFFFF 1) State.reset = .next t ∧ sent t = [[0x01, 0x83, 0x02, 0xC0, 0xF1]] :=
  of_reaches (by decide +kernel)
/-- Rule R201: the input registers are a space of their own. -/
theorem test_rir_own_space :
    ∃ t, exec (.rir 0 1) (withRegs [(0, 7)]) = .next t ∧ sent t = [[0x01, 0x04, 0x02, 0x00, 0x00, 0xB9, 0x30]] :=
  of_reaches (by decide +kernel)
/-- Rule R222: the command clears SYS_ERROR and the latch, not the outputs (vector O6). -/
theorem test_wsr_reset_error :
    ∃ t, exec (.wsr 0x109 1) (triggered true true 0 .msTick) = .next t ∧
      t.hrGet 0x108 = 0 ∧ t.hrGet 0x109 = 1 ∧ t.resetRequired = false ∧ t.relayOut = true ∧
        sent t = [[0x01, 0x06, 0x01, 0x09, 0x00, 0x01, 0x99, 0xF4]] := of_reaches (by decide +kernel)
theorem test_wsr_beyond_the_end :
    ∃ t, exec (.wsr 0x10A 1) State.reset = .next t ∧ t.hr = [] := of_reaches (by decide +kernel)
/-- Rule R223: SYS_ERROR ends at 0 whatever the request wrote to it. -/
theorem test_wmr_ascending :
    ∃ t, exec (.wmr 0x108 2 4 [0x12, 0x34, 0x00, 0x01]) State.reset = .next t ∧
      t.hrGet 0x108 = 0 ∧ t.hrGet 0x109 = 1 := of_reaches (by decide +kernel)
/-- Program P3 step 4: the byte count does not match. -/
theorem test_wmr_mismatch :
    ∃ t, exec (.wmr 0x44 2 3 [0x01, 0xF4, 0x03]) State.reset = .next t ∧
      t.hr = [] ∧ sent t = [[0x01, 0x90, 0x02, 0xCD, 0xC1]] := of_reaches (by decide +kernel)
theorem test_illegal_example :
    ∃ t, exec (.illegal 0x01 0 0 0 1) State.reset = .next t ∧ sent t = [[0x01, 0x81, 0x01, 0x81, 0x90]] :=
  of_reaches (by decide +kernel)

/-! ## The receiver and the monitor -/

/-- Rule R390: a retried frame after a partial one leaves three bytes behind. -/
theorem test_desynchronised_receiver :
    ∃ t, Host.Core.run Sys2Proof.core 8
        (receiving Config.vectorParams [0x01, 0x03, 0x00]
          ([0x01, 0x03, 0x00, 0x10, 0x00, 0x04, 0x45, 0xCC].map Event.rxByte)) = .next t ∧
      t.rxBuf = [0x04, 0x45, 0xCC] ∧ sent t = [] := of_reaches (by decide +kernel)
/-- The digital vectors D2, D3, D7 and D8. -/
theorem test_debounce_boundary :
    (({ DigitalChannel.reset with prevLevel := true, edgeTime := 100 }).sample true true 150 50).active = false ∧
      (({ DigitalChannel.reset with prevLevel := true, edgeTime := 100 }).sample true true 151 50).active = true := by
  decide
theorem test_debounce_wrap :
    (({ DigitalChannel.reset with prevLevel := true, edgeTime := 0xFFFFFFF0 }).sample true true 0x30 50).changes = 1 ∧
      (({ DigitalChannel.reset with prevLevel := true, edgeTime := 0xFFFFFFF0 }).sample true true 0x20 50).changes = 0 := by
  decide
/-- Rules R264, R268 and R324, and vector O3: an inactive channel is in error, and the outputs hold. -/
theorem test_inactive_channel_is_error :
    ∃ t, step { (withRegs [(0x1A, 1), (0x1B, 1)]) with
        resetRequired := true, relayOut := true, indOut := true, inputs := [.cycle #v[124, 50, 0, 0] (levels false)] } =
          .next t ∧
      t.hrGet 0 = 4 ∧ t.hrGet 2 = 0x01 ∧ t.hrGet 3 = 0 ∧ t.hrGet 4 = 1 ∧ t.hrGet 5 = 3 ∧ t.ai[0].errors = 1 ∧
        t.relayOut = true ∧ t.critCount = 0 := of_reaches (by decide +kernel)
/-- The output vectors O1 and O5. -/
theorem test_critical_cycle_latches :
    ∃ t, step (triggered false false 1 (.cycle quiet (levels true))) = .next t ∧
      t.relayOut = true ∧ t.indOut = true ∧ t.resetRequired = true ∧ t.hrGet 0 = 2 ∧ t.hrGet 4 = 1 ∧
        t.critCount = 1 ∧ t.lastCheck = 1000 := of_reaches (by decide +kernel)
theorem test_ok_cycle_auto_reset :
    ∃ t, step { (withRegs [(0x4A, 1)]) with
        resetRequired := true, relayOut := true, indOut := true, inputs := [.cycle quiet (levels true)] } = .next t ∧
      t.relayOut = false ∧ t.indOut = false ∧ t.resetRequired = false ∧ t.hrGet 4 = 0 := of_reaches (by decide +kernel)
/-- Rule R267's boundary values and vector chain. -/
theorem test_classify_boundaries :
    classify 500 1000 1500 2000 ⟨500, 0⟩ = (.critical, 0x02) ∧
      classify 500 1000 1500 2000 ⟨500001, 999⟩ = (.warning, 0x04) ∧
        classify 500 1000 1500 2000 ⟨2000, 0⟩ = (.ok, 0x10) ∧
          classify 500 1000 1500 2000 ⟨0, 0⟩ = (.error, 0x01) := by decide
theorem test_tick_wraps :
    ∃ t, step { State.reset with uptimeMs := 0xFFFFFFFF, inputs := [.msTick] } = .next t ∧ t.uptimeMs = 0 :=
  of_reaches (by decide +kernel)
/-- Vector O10. -/
theorem test_reset_clears :
    ∃ t, step (triggered true true 1 .reset) = .next t ∧
      t.resetRequired = false ∧ t.relayOut = false ∧ t.hr = [] ∧ t.uptimeMs = 0 ∧ t.di[0].active = false :=
  of_reaches (by decide +kernel)
theorem test_memory_wf_after_write : Memory.wf (withRegs [(0x44, 7), (0x109, 1), (0x44, 500)]) = true := by
  decide +kernel
theorem test_reset_value_is_not_listed : (withRegs [(0x44, 7), (0x109, 1), (0x44, 500)]).hr = [(0x109, 1)] := by
  decide +kernel


/-! ## Witnesses: encoding -/

theorem witness_DecodeOfEncode :
    (Instr.wmr 0xFFFF 0xFFFF 2 [0xFF, 0x00]).wf = true ∧ (Instr.wmr 0 0 0 []).wf = true ∧
      (Instr.rhr 0xFFFF 0).wf = true ∧ (Instr.rir 0 0xFFFF).wf = true ∧ (Instr.wsr 0xFFFF 0xFFFF).wf = true ∧
        (Instr.illegal 0xFF 1 2 3 4).wf = true := by decide
theorem witness_EncodeOfDecode : decode 0xF7 (encode 0xF7 (.wmr 0 0 1 [0xAB])) = .ok (.wmr 0 0 1 [0xAB]) := by
  decide +kernel
theorem witness_ExpectedLengthOfPartialFrame :
    ([0x01] : List Byte).length < 2 ∧ (0x0F : Byte) ≠ 0x10 ∧ ([0, 0, 0, 0] : List Byte).length < 5 := by decide

/-! ## Witnesses: receiver -/

/-- Eight bytes of a 0x10 request with byte count 0: one byte short of its length and of the smallest buffer. -/
def eightOfNine : List Byte := (encode 0x01 (.wmr 0 0 0 [])).take 8

theorem witness_FullBufferIsDiscarded :
    let s := receiving smallParams (List.replicate 9 0x10) [.rxByte 0x55, .msTick]
    s.inputs = .rxByte 0x55 :: [.msTick] ∧ s.rxBuf.length = s.cfg.frameBufSize := by decide +kernel
theorem witness_ByteIsAccumulated_kept :
    let s := receiving smallParams [0x01, 0x10, 0, 0, 0, 0] [.rxByte 0x00]
    s.inputs = .rxByte 0x00 :: [] ∧ s.rxBuf.length < s.cfg.frameBufSize ∧
      expectedLen (s.rxBuf ++ [0x00]) ≠ some (s.rxBuf.length + 1) := by decide +kernel
theorem witness_ByteIsAccumulated_complete :
    let s := receiving smallParams eightOfNine [.rxByte 0x00]
    s.inputs = .rxByte 0x00 :: [] ∧ s.rxBuf.length + 1 = s.cfg.frameBufSize ∧
      expectedLen (s.rxBuf ++ [0x00]) = some (s.rxBuf.length + 1) := by decide +kernel
theorem witness_TransportErrorClearsReceiver :
    (receiving Config.vectorParams [0x01, 0x03] [.rxError]).inputs = .rxError :: [] := rfl
theorem witness_LineSilence :
    let s := receiving smallParams [0x01, 0x03] [.rxSilence]
    let s' := receiving Config.vectorParams [0x01, 0x03] [.rxSilence]
    (s.inputs = .rxSilence :: [] ∧ s.cfg.silenceReset = true) ∧
      s'.inputs = .rxSilence :: [] ∧ s'.cfg.silenceReset = false := by decide +kernel
theorem witness_StepRunsDecodedRequest :
    let s := receiving Config.vectorParams [0x01, 0x03, 0x00, 0x10, 0x00, 0x04, 0x45] [.rxByte 0xCC]
    s.inputs = .rxByte 0xCC :: [] ∧ s.rxBuf.length < s.cfg.frameBufSize ∧
      decode s.cfg.slaveAddr (s.rxBuf ++ [0xCC]) = .ok (.rhr 0x10 4) := by decide +kernel
/-- The frame fills the smallest buffer exactly. -/
theorem witness_DeliveredRequestIsExecuted :
    let i := Instr.wmr 0 0 0 []
    let s := receiving smallParams [] ((encode smallParams.slaveAddr i).map Event.rxByte ++ [.msTick])
    i.wf = true ∧ i.fits s.cfg = true ∧ i.frameLen = s.cfg.frameBufSize ∧ s.rxBuf = [] ∧
      s.inputs = (encode s.cfg.slaveAddr i).map Event.rxByte ++ [.msTick] := by decide +kernel
/-- The frame is one byte longer than the smallest buffer. -/
theorem witness_OversizedRequestOverflows :
    let i := Instr.wmr 0 0 1 [0xFF]
    let s := receiving smallParams [] (((encode smallParams.slaveAddr i).take 10).map Event.rxByte ++ [.msTick])
    i.wf = true ∧ i.fits s.cfg = false ∧ s.rxBuf = [] ∧
      s.inputs = ((encode s.cfg.slaveAddr i).take (s.cfg.frameBufSize + 1)).map Event.rxByte ++ [.msTick] ∧
        Config.vectorParams.frameBufSize = 256 := by decide +kernel
/-- The whole of it delivered, and of the longest frame that leaves at most seven bytes. -/
theorem witness_OversizedRequestOverflows_whole :
    let i := Instr.wmr 0 0 1 [0xFF]
    let j := Instr.wmr 0 0 8 [1, 2, 3, 4, 5, 6, 7, 8]
    let s := receiving smallParams [] ((encode smallParams.slaveAddr j).map Event.rxByte ++ [.msTick])
    (i.wf = true ∧ i.fits s.cfg = false ∧ i.frameLen = s.cfg.frameBufSize + 1) ∧
      j.wf = true ∧ j.fits s.cfg = false ∧ j.frameLen = s.cfg.frameBufSize + 8 ∧ s.rxBuf = [] ∧
        s.inputs = (encode s.cfg.slaveAddr j).map Event.rxByte ++ [.msTick] := by decide +kernel
theorem test_oversized_leaves_its_last_bytes :
    ∃ t, Host.Core.run Sys2Proof.core 17
        (receiving smallParams [] ((encode 0x01 (.wmr 0 0 8 [1, 2, 3, 4, 5, 6, 7, 8])).map Event.rxByte)) = .next t ∧
      t.rxBuf = (encode 0x01 (.wmr 0 0 8 [1, 2, 3, 4, 5, 6, 7, 8])).drop 10 ∧ t.rxBuf.length = 7 ∧ t.hr = [] ∧
        sent t = [] := of_reaches (by decide +kernel)
/-- Byte counts 247 and 248 at FRAME_BUF_SIZE 256. -/
theorem test_oversized_boundary :
    (Instr.wmr 0 0 247 []).fits Config.vectorParams = true ∧ (Instr.wmr 0 0 248 []).fits Config.vectorParams = false ∧
      (Instr.wmr 0 0 255 []).frameLen = 256 + 8 := by decide +kernel

/-! ## Witnesses: engine -/

theorem witness_OtherSlaveIsDropped :
    let s := receiving Config.vectorParams [0x02, 0x03, 0x00, 0x10, 0x00, 0x04, 0x45] [.rxByte 0xFF]
    s.inputs = .rxByte 0xFF :: [] ∧ s.rxBuf.length < s.cfg.frameBufSize ∧
      expectedLen (s.rxBuf ++ [0xFF]) = some (s.rxBuf.length + 1) ∧
        (s.rxBuf ++ [(0xFF : Byte)]).head? ≠ some s.cfg.slaveAddr := by decide +kernel
theorem witness_BadCrcIsDropped :
    let s := receiving Config.vectorParams [0x01, 0x03, 0x00, 0x00, 0x00, 0x0A, 0xC5] [.rxByte 0xCE]
    s.inputs = .rxByte 0xCE :: [] ∧ s.rxBuf.length < s.cfg.frameBufSize ∧
      expectedLen (s.rxBuf ++ [0xCE]) = some (s.rxBuf.length + 1) ∧
        s.rxBuf = [0x01, 0x03, 0x00, 0x00, 0x00, 0x0A] ++ [0xC5] ∧
          (crc16 [0x01, 0x03, 0x00, 0x00, 0x00, 0x0A]).toNat ≠ (0xC5 : Byte).toNat + 256 * (0xCE : Byte).toNat := by
  decide +kernel
theorem witness_ExactlyOneResponse :
    let s := receiving Config.vectorParams [0x01, 0x03, 0x00, 0x10, 0x00, 0x04, 0x45] [.rxByte 0xCC]
    (s.inputs = .rxByte 0xCC :: [] ∧ s.rxBuf.length < s.cfg.frameBufSize ∧
      decode s.cfg.slaveAddr (s.rxBuf ++ [0xCC]) = .ok (.rhr 0x10 4)) ∧
        ∃ t, exec (.rhr 0x10 4) s = .next t ∧ t.txCount = 1 := ⟨by decide +kernel, of_reaches (by decide +kernel)⟩
theorem witness_ExactlyOneResponse_none :
    (∃ t, step (receiving Config.vectorParams [] [.msTick]) = .next t ∧ t.uptimeMs = 1) ∧
      ∀ b es i, (receiving Config.vectorParams [] [.msTick]).inputs = .rxByte b :: es →
        (receiving Config.vectorParams [] [.msTick]).rxBuf.length < Config.vectorParams.frameBufSize →
          decode Config.vectorParams.slaveAddr ((receiving Config.vectorParams [] [.msTick]).rxBuf ++ [b]) ≠ .ok i :=
  ⟨of_reaches (by decide +kernel), fun _ _ _ h => by cases h⟩
/-- Each row of the table of causes, at and just past its bounds. -/
theorem witness_ExceptionResponses :
    exceptionOf Config.vectorParams (.rhr 0x109 2) = some 0x02 ∧ exceptionOf Config.vectorParams (.rhr 0x109 1) = none ∧
      exceptionOf Config.vectorParams (.rhr 0 126) = some 0x02 ∧ exceptionOf Config.vectorParams (.rhr 0 125) = none ∧
      exceptionOf Config.vectorParams (.rir 15 2) = some 0x02 ∧ exceptionOf Config.vectorParams (.rir 15 1) = none ∧
      exceptionOf Config.vectorParams (.wsr 0x10A 0) = some 0x02 ∧ exceptionOf Config.vectorParams (.wsr 0x109 0) = none ∧
      exceptionOf Config.vectorParams (.wmr 0x109 1 1 [0]) = some 0x02 ∧
      exceptionOf Config.vectorParams (.wmr 0x109 1 2 [0, 0]) = none ∧
      exceptionOf Config.vectorParams (.illegal 0xFF 0 0 0 0) = some 0x01 := by decide +kernel
theorem witness_OnlyTwoExceptionCodes :
    ∃ t, exec (.illegal 0x80 0 0 0 0) State.reset = .next t ∧ Responds [0x01, 0x80, 0x01] State.reset t ∧
      (0x80 : Byte).getLsbD 7 = true := ⟨_, rfl, ⟨rfl, rfl⟩, by decide⟩
theorem witness_RequestIgnoresMonitorState :
    ∃ t, exec (.wsr 0x109 1) (triggered true true 0 .msTick) = .next t ∧ t.resetRequired = false :=
  of_reaches (by decide +kernel)
theorem witness_TransmitOutcomeChangesNothing :
    ∃ t, exec (.wmr 0x44 1 2 [0, 9]) State.reset = .next t ∧ t.hrGet 0x44 = 9 := of_reaches (by decide +kernel)

/-! ## Witnesses: requests -/

theorem witness_ReadHoldingRegisters :
    (State.reset.cfg.holdingRegCount < (0x109 : Word).toNat + (2 : Word).toNat) ∧
      (State.reset.cfg.maxReadQty < (126 : Word).toNat) ∧
      ((0x109 : Word).toNat + (1 : Word).toNat = State.reset.cfg.holdingRegCount ∧
        (1 : Word).toNat ≤ State.reset.cfg.maxReadQty) ∧
      ((0 : Word).toNat + (125 : Word).toNat ≤ State.reset.cfg.holdingRegCount ∧
        (125 : Word).toNat = State.reset.cfg.maxReadQty) := by decide +kernel
theorem witness_ReadInputRegisters :
    (State.reset.cfg.inputRegCount < (15 : Word).toNat + (2 : Word).toNat) ∧
      ((15 : Word).toNat + (1 : Word).toNat = State.reset.cfg.inputRegCount ∧
        (1 : Word).toNat ≤ State.reset.cfg.maxReadQty) ∧ State.reset.unwrittenSpaces :=
  ⟨by decide +kernel, by decide +kernel, fun _ => rfl, fun _ => rfl, fun _ => rfl⟩
theorem witness_WriteSingleRegister :
    State.reset.cfg.holdingRegCount = (0x10A : Word).toNat ∧ (0x109 : Word).toNat < State.reset.cfg.holdingRegCount ∧
      ((0x109 : Word).toNat = 0x109 ∧ (1 : Word) = 1) ∧ ¬ ((0x109 : Word).toNat = 0x109 ∧ (2 : Word) = 1) ∧
        (0x108 ≠ (0x107 : Word).toNat ∧ ¬ (0x108 = 0x108 ∧ (0x107 : Word).toNat = 0x109 ∧ (1 : Word) = 1)) := by
  decide +kernel
theorem witness_WriteMultipleRegisters_refused :
    ((Instr.wmr 0x109 2 4 [0, 0, 0, 0]).wf = true ∧
        State.reset.cfg.holdingRegCount < (0x109 : Word).toNat + (2 : Word).toNat) ∧
      (Instr.wmr 0x108 2 3 [0, 0, 0]).wf = true ∧ (3 : Byte).toNat ≠ 2 * (2 : Word).toNat := by decide +kernel
theorem witness_WriteMultipleRegisters_command :
    ((Instr.wmr 0x108 2 4 [0x12, 0x34, 0, 1]).wf = true ∧
      (0x108 : Word).toNat + (2 : Word).toNat = State.reset.cfg.holdingRegCount ∧
      (4 : Byte).toNat = 2 * (2 : Word).toNat) ∧
      (Instr.wmr 0x108 2 4 [0x12, 0x34, 0, 1]).givesResetError ∧
      ([0x12, 0x34, 0, 1] : List Byte)[2 * 1]? = some 0 ∧ ([0x12, 0x34, 0, 1] : List Byte)[2 * 1 + 1]? = some 1 :=
  ⟨by decide +kernel, ⟨1, by decide +kernel⟩, by decide +kernel, by decide +kernel⟩
theorem witness_WriteMultipleRegisters_plain :
    (Instr.wmr 0x108 1 2 [0x12, 0x34]).wf = true ∧ ¬ (Instr.wmr 0x108 1 2 [0x12, 0x34]).givesResetError ∧
      0x109 ≥ (0x108 : Word).toNat + (1 : Word).toNat :=
  ⟨by decide +kernel, fun ⟨k, hk, ha, _⟩ => by
    have h1 : (1 : Word).toNat = 1 := rfl
    have h2 : (0x108 : Word).toNat = 0x108 := rfl
    omega, by decide +kernel⟩
theorem witness_IllegalFunctionCode :
    (0x0F : Byte) ≠ 0x03 ∧ (0x0F : Byte) ≠ 0x04 ∧ (0x0F : Byte) ≠ 0x06 ∧ (0x0F : Byte) ≠ 0x10 := by decide
theorem witness_WritePathSideEffect :
    0x109 < State.reset.cfg.holdingRegCount ∧ (0x109 = 0x109 ∧ (1 : Word) = 1) ∧ ¬ (0x109 = 0x109 ∧ (0 : Word) = 1) ∧
      (0x108 ≠ 0x109 ∧ ¬ (0x108 = 0x108 ∧ 0x109 = 0x109 ∧ (0 : Word) = 1)) := by decide +kernel
theorem witness_WriteThenReadRoundTrip_single :
    (0x109 : Word).toNat < State.reset.cfg.holdingRegCount ∧
      ∃ t, exec (.wsr 0x109 1) State.reset = .next t ∧ t.hrGet 0x109 = 1 :=
  ⟨by decide +kernel, of_reaches (by decide +kernel)⟩
theorem witness_WriteThenReadRoundTrip_multiple :
    ((0x108 : Word).toNat + (2 : Word).toNat ≤ State.reset.cfg.holdingRegCount ∧ (4 : Byte).toNat = 2 * (2 : Word).toNat ∧
      1 < (2 : Word).toNat ∧ (0x109 : Word).toNat = (0x108 : Word).toNat + 1 ∧
      ([0x12, 0x34, 0, 1] : List Byte)[2 * 1]? = some 0 ∧ ([0x12, 0x34, 0, 1] : List Byte)[2 * 1 + 1]? = some 1 ∧
      (0x109 : Word).toNat ≠ 0x108) ∧
      ∃ t, exec (.wmr 0x108 2 4 [0x12, 0x34, 0, 1]) State.reset = .next t ∧ t.hrGet 0x109 = 1 :=
  ⟨by decide +kernel, of_reaches (by decide +kernel)⟩
/-- SYS_ERROR written without the command. -/
theorem witness_WriteThenReadRoundTrip_sysError :
    ((0x108 : Word).toNat = 0x108 ∧ 0 < (1 : Word).toNat ∧
      ([0x12, 0x34] : List Byte)[2 * 0]? = some 0x12 ∧ ([0x12, 0x34] : List Byte)[2 * 0 + 1]? = some 0x34 ∧
      (2 : Byte).toNat = 2 * (1 : Word).toNat ∧ ¬ (Instr.wmr 0x108 1 2 [0x12, 0x34]).givesResetError) ∧
      ∃ t, exec (.wmr 0x108 1 2 [0x12, 0x34]) State.reset = .next t ∧ t.hrGet 0x108 = 0x1234 :=
  ⟨⟨by decide, by decide, by decide, by decide, by decide, witness_WriteMultipleRegisters_plain.2.1⟩,
    of_reaches (by decide +kernel)⟩
/-- A later state: registers written, a tick, a transport error, a byte and a cycle to come. -/
def written : State :=
  { (withRegs [(0x44, 9), (0x10, 8), (0x22, 7)]) with
    inputs := [.msTick, .rxError, .rxByte 0x01, .cycle quiet (levels true)] }
theorem witness_WriteThenReadRoundTrip_later :
    (Event.reset ∉ written.inputs ∧ ¬ written.publishes 0x44 ∧ ¬ written.publishes 0x10 ∧ ¬ written.publishes 0x22) ∧
      ∃ u, Host.Core.run Sys2Proof.core 4 written = .next u ∧
        u.txLog = written.txLog ∧ u.cfg = written.cfg ∧ u.hrGet 0x44 = 9 ∧ u.hrGet 0x10 = 8 ∧ u.hrGet 0x22 = 7 ∧
          u.uptimeMs = 1 :=
  ⟨⟨by decide +kernel, by unfold State.publishes; decide +kernel, by unfold State.publishes; decide +kernel,
    by unfold State.publishes; decide +kernel⟩, of_reaches (by decide +kernel)⟩
/-- A published register, no cycle to come. -/
theorem witness_WriteThenReadRoundTrip_noCycle :
    let t := { (withRegs [(0x0, 9)]) with inputs := [.msTick] }
    (Event.reset ∉ t.inputs ∧ t.publishes 0x0 ∧ ∀ x y, Event.cycle x y ∉ t.inputs) ∧
      ∃ u, Host.Core.run Sys2Proof.core 1 t = .next u ∧ u.txLog = t.txLog ∧ u.hrGet 0x0 = 9 :=
  ⟨⟨by decide +kernel, .inl (by decide), fun _ _ h => by cases h with | tail _ h => cases h⟩,
    of_reaches (by decide +kernel)⟩
theorem witness_WritesAreIdempotent :
    ∃ t, exec (.wsr 0x44 9) State.reset = .next t ∧ ∃ u, exec (.wsr 0x44 9) t = .next u ∧ u.hrGet 0x44 = 9 ∧
      (Instr.wsr 0x44 9).code = 0x06 :=
  ⟨_, Sys2Proof.Machine.execWsr_inRange (by decide +kernel), of_reaches (by decide +kernel)⟩

/-! ## Witnesses: monitor -/

/-- One distance in each band of the thresholds after reset, at its upper bound or just past the one before. -/
theorem witness_ClassificationChain :
    (⟨0, 3⟩ : Dist).num = 0 ∧ ((⟨500, 0⟩ : Dist).num ≠ 0 ∧ 500 ≤ (State.reset.hrGet 0x44).toNat * 1) ∧
      ((State.reset.hrGet 0x44).toNat * 1000 < 500001 ∧ 500001 ≤ (State.reset.hrGet 0x45).toNat * 1000) ∧
      ((State.reset.hrGet 0x45).toNat * 1 < 1500 ∧ 1500 ≤ (State.reset.hrGet 0x46).toNat * 1) ∧
      ((State.reset.hrGet 0x46).toNat * 1 < 2000 ∧ 2000 ≤ (State.reset.hrGet 0x47).toNat * 1) ∧
      (State.reset.hrGet 0x47).toNat * 1000 < 2000001 := by decide +kernel
theorem witness_FartherIsNeverMoreSevere :
    (Dist.leDist ⟨1, 2⟩ ⟨1, 1⟩ ∧ (⟨1, 2⟩ : Dist).num ≠ 0) ∧ Dist.leDist ⟨0, 0⟩ ⟨1, 0⟩ ∧ (500 : Word).toNat ≤ (500 : Word).toNat ∧ (0 : Word).toNat ≤ (7 : Word).toNat := by
  unfold Dist.leDist; decide
theorem witness_AnalogReadingIsRecorded :
    (State.reset.classifyDist ⟨0, 0⟩).1 = .error ∧ (State.reset.classifyDist ⟨1, 0⟩).1 ≠ .error ∧
      (1 : Fin 4) ≠ 0 := by decide +kernel
/-- The last inactive and the first active raw value at 3300 mV. -/
theorem witness_AnalogStepReadsEnabledChannel :
    State.reset.hrGet (0x1A + (3 : Fin 4).val) = 0 ∧ (withRegs [(0x1D, 0x8000)]).hrGet (0x1A + (3 : Fin 4).val) ≠ 0 ∧
      (124 : Raw12).toNat * State.reset.cfg.vRefMv < 409600 ∧ 409600 ≤ (125 : Raw12).toNat * State.reset.cfg.vRefMv := by
  decide +kernel
theorem witness_MillivoltsFitTheRegister : Config.vectorParams.vRefMv = 3300 := by decide +kernel
/-- Channel 0 enabled, active-high, not triggered, its level high since time 0. -/
def pressed : State :=
  { triggered false false 0 .msTick with di := State.reset.di.set 0 { DigitalChannel.reset with prevLevel := true } }
/-- The time from the channel's last edge to `now`, as the statement has it. -/
def elapsedAt (now : Word32) : Nat :=
  (now.toNat + 2 ^ 32 - (digitalStep 0 true now pressed).di[(0 : Fin 4)].edgeTime.toNat) % 2 ^ 32
theorem witness_DigitalStepDebounces :
    State.reset.hrGet (0x26 + (0 : Fin 4).val) = 0 ∧ pressed.hrGet (0x26 + (0 : Fin 4).val) ≠ 0 ∧
      (false ≠ pressed.di[(0 : Fin 4)].prevLevel ∧ true = pressed.di[(0 : Fin 4)].prevLevel) ∧
      ((true == decide (pressed.hrGet (0x2A + (0 : Fin 4).val) ≠ 0)) ≠ pressed.di[(0 : Fin 4)].active ∧
        pressed.cfg.debounceMs[(0 : Fin 4)].toNat < elapsedAt 51) ∧
      ¬ (pressed.cfg.debounceMs[(0 : Fin 4)].toNat < elapsedAt 50) := by decide +kernel
theorem witness_ShortFlipIsNotCounted :
    true ≠ DigitalChannel.reset.prevLevel ∧
      ∀ now ∈ [(0xFFFFFFF5 : Word32), 0x22], (now - (0xFFFFFFF0 : Word32)).toNat ≤ (50 : Word32).toNat := by
  refine ⟨by decide, fun now h => ?_⟩
  rcases List.mem_pair.1 h with rfl | rfl <;> decide
theorem witness_PersistentFlipCountsOnce :
    let c := { DigitalChannel.reset with prevLevel := true, edgeTime := 100 }
    true = c.prevLevel ∧ true ≠ c.active ∧ (50 : Word32).toNat < ((151 : Word32) - c.edgeTime).toNat := by decide
theorem witness_CycleAggregatesAndCounts_critical : (triggered false false 0 .msTick).someCritical :=
  .inr ⟨0, by decide +kernel, by decide +kernel⟩
/-- Analog channel 0 enabled with the status given, nothing else enabled. -/
def analogWith (st : Status) : State :=
  { (withRegs [(0x1A, 1)]) with ai := State.reset.ai.set 0 { AnalogChannel.reset with status := st } }
theorem witness_CycleAggregatesAndCounts_warning :
    ¬ (analogWith .warning).someCritical ∧ (analogWith .warning).someAnalog .warning := by
  unfold State.someCritical State.someAnalog; decide +kernel
theorem witness_CycleAggregatesAndCounts_error :
    ¬ (analogWith .error).someCritical ∧ ¬ (analogWith .error).someAnalog .warning ∧
      (analogWith .error).someAnalog .error := by
  unfold State.someCritical State.someAnalog; decide +kernel
theorem witness_CycleAggregatesAndCounts_ok :
    ¬ State.reset.someCritical ∧ ¬ State.reset.someAnalog .warning ∧ ¬ State.reset.someAnalog .error := by
  unfold State.someCritical State.someAnalog; decide +kernel
/-- The one hypothesis of every statement about a cycle. -/
theorem witness_cycle_event :
    (triggered true true 0 (.cycle quiet (levels true))).inputs = .cycle quiet (levels true) :: [] := by
  decide +kernel
theorem witness_CycleStepsEveryChannelFromItsStart :
    (triggered true true 0 (.cycle quiet (levels true))).inputs = .cycle quiet (levels true) :: [] :=
  witness_cycle_event
theorem witness_CyclePublishesResults :
    (triggered true true 0 (.cycle quiet (levels true))).inputs = .cycle quiet (levels true) :: [] :=
  witness_cycle_event
theorem witness_CycleDrivesOutputs_critical :
    ∃ t, step (triggered false false 0 (.cycle quiet (levels true))) = .next t ∧ t.sysStatus = .critical :=
  of_reaches (by decide +kernel)
/-- An OK cycle: DI1 disabled, the latch, outputs and AUTO_RESET_EN as given. -/
def okCycle (latch : Bool) (autoReset : Word) : State :=
  { (withRegs [(0x4A, autoReset)]) with
    resetRequired := latch, relayOut := true, indOut := true, inputs := [.cycle quiet (levels false)] }
theorem witness_CycleDrivesOutputs_ok :
    (∃ t, step (okCycle true 1) = .next t ∧ t.sysStatus = .ok ∧ (okCycle true 1).hrGet 0x4A ≠ 0) ∧
      (∃ t, step (okCycle true 0) = .next t ∧
        t.sysStatus = .ok ∧ (okCycle true 0).hrGet 0x4A = 0 ∧ (okCycle true 0).resetRequired = true) ∧
      ∃ t, step (okCycle false 0) = .next t ∧ t.sysStatus = .ok ∧ (okCycle false 0).resetRequired = false :=
  ⟨of_reaches (by decide +kernel), of_reaches (by decide +kernel), of_reaches (by decide +kernel)⟩
theorem witness_CycleDrivesOutputs_other :
    ∃ t, step { (withRegs [(0x1A, 1)]) with inputs := [.cycle quiet (levels false)] } = .next t ∧
      t.sysStatus ≠ .critical ∧ t.sysStatus ≠ .ok := of_reaches (by decide +kernel)
theorem witness_CycleFrameHolds :
    let s := triggered true true 0 (.cycle quiet (levels true))
    s.inputs = .cycle quiet (levels true) :: [] ∧ 0x1 ∉ publishedAddrs ∧ 0x14 ∉ publishedAddrs ∧
      s.hrGet (0x1A + (0 : Fin 4).val) = 0 ∧ s.hrGet (0x26 + (1 : Fin 4).val) = 0 := by decide +kernel

/-! ## Witnesses: timer, reset, order -/

theorem witness_TickAdvancesUptime :
    ({ State.reset with uptimeMs := 0xFFFFFFFF, inputs := [.msTick] } : State).inputs = .msTick :: [] := rfl
theorem witness_OnlyTickAndResetChangeUptime :
    (∃ t, step { State.reset with inputs := [.msTick] } = .next t ∧
        t.uptimeMs ≠ ({ State.reset with inputs := [.msTick] } : State).uptimeMs) ∧
      ∃ t, step (triggered true true 1 .reset) = .next t ∧ t.uptimeMs ≠ (triggered true true 1 .reset).uptimeMs :=
  ⟨of_reaches (by decide +kernel), of_reaches (by decide +kernel)⟩
theorem witness_ResetEventRestoresEverything :
    (triggered true true 1 .reset).inputs = .reset :: [] ∧ 0x4A ∉ [0x14, 0x15, 0x44, 0x45, 0x46, 0x47, 0x48, 0x49, 0x4B] ∧
      (0xFF < 0x100 ∨ 0x109 < 0xFF) ∧ (0x10A < 0x100 ∨ 0x109 < 0x10A) := by decide +kernel
/-- The codes of the five statuses (rule R60). -/
theorem test_status_codes :
    Status.ok.code = 0 ∧ Status.warning.code = 1 ∧ Status.critical.code = 2 ∧ Status.emergency.code = 3 ∧
      Status.error.code = 4 := by decide
theorem witness_AgentsAreIsolated :
    (∃ t, step (receiving Config.vectorParams [0x01] [.rxByte 0x03]) = .next t ∧ t.rxBuf = [0x01, 0x03]) ∧
      ∃ t, step (triggered false false 0 (.cycle quiet (levels true))) = .next t ∧ t.relayOut = true :=
  ⟨of_reaches (by decide +kernel), of_reaches (by decide +kernel)⟩

/-- A transport error, a silence and a tick, the latch set. -/
theorem witness_AgentsAreIsolated_latch :
    (∃ t, step (triggered true true 0 .rxError) = .next t ∧ t.resetRequired = true) ∧
      (∃ t, step { (receiving smallParams [] [.rxSilence]) with resetRequired := true } = .next t ∧
        t.resetRequired = true) ∧
      ∃ t, step (triggered true true 0 .msTick) = .next t ∧ t.resetRequired = true :=
  ⟨of_reaches (by decide +kernel), of_reaches (by decide +kernel), of_reaches (by decide +kernel)⟩

/-! ## Witnesses: latch, outputs, invariants -/

theorem witness_LatchIsSetAndClearedOnlyAsStated_set :
    ∃ t, step (triggered false false 0 (.cycle quiet (levels true))) = .next t ∧
      (triggered false false 0 (.cycle quiet (levels true))).resetRequired = false ∧ t.resetRequired = true :=
  of_reaches (by decide +kernel)
/-- The last byte of a request that gives the reset-error command, the latch set. -/
def commandArriving : State :=
  { (receiving Config.vectorParams [0x01, 0x06, 0x01, 0x09, 0x00, 0x01, 0x99] [.rxByte 0xF4]) with
    resetRequired := true, relayOut := true, indOut := true }
theorem witness_LatchIsSetAndClearedOnlyAsStated_cleared :
    (∃ t, step (okCycle true 1) = .next t ∧ (okCycle true 1).resetRequired = true ∧ t.resetRequired = false) ∧
      (∃ t, step commandArriving = .next t ∧ commandArriving.resetRequired = true ∧ t.resetRequired = false) ∧
      ∃ t, step (triggered true true 0 .reset) = .next t ∧
        (triggered true true 0 .reset).resetRequired = true ∧ t.resetRequired = false :=
  ⟨of_reaches (by decide +kernel), of_reaches (by decide +kernel), of_reaches (by decide +kernel)⟩
/-- That request is executed normally. -/
theorem witness_LatchIsSetAndClearedOnlyAsStated_request :
    commandArriving.inputs = .rxByte 0xF4 :: [] ∧
      decode commandArriving.cfg.slaveAddr (commandArriving.rxBuf ++ [0xF4]) = .ok (.wsr 0x109 1) ∧
      (Instr.wsr 0x109 1).givesResetError ∧ exceptionOf commandArriving.cfg (.wsr 0x109 1) = none :=
  ⟨rfl, by decide +kernel, ⟨rfl, rfl⟩, by decide +kernel⟩
/-- The indicator alone, set and cleared. -/
theorem witness_OutputsChangeOnlyAsStated_indicator :
    (∃ t, step { (triggered false true 0 (.cycle quiet (levels true))) with indOut := false } = .next t ∧
        t.indOut = true ∧ t.relayOut = true ∧ t.sysStatus = .critical) ∧
      (∃ t, step { (okCycle false 0) with relayOut := false } = .next t ∧ t.indOut = false) ∧
      ∃ t, step { (triggered true true 0 .reset) with relayOut := false } = .next t ∧ t.indOut = false :=
  ⟨of_reaches (by decide +kernel), of_reaches (by decide +kernel), of_reaches (by decide +kernel)⟩
theorem witness_OutputsChangeOnlyAsStated :
    (∃ t, step (triggered false false 0 (.cycle quiet (levels true))) = .next t ∧
        (triggered false false 0 (.cycle quiet (levels true))).relayOut = false ∧ t.relayOut = true) ∧
      (∃ t, step (okCycle false 0) = .next t ∧ (okCycle false 0).relayOut = true ∧ t.relayOut = false) ∧
      ∃ t, step (triggered true true 0 .reset) = .next t ∧
        (triggered true true 0 .reset).relayOut = true ∧ t.relayOut = false :=
  ⟨of_reaches (by decide +kernel), of_reaches (by decide +kernel), of_reaches (by decide +kernel)⟩
theorem witness_StepKeepsOutputsLatched :
    (okCycle true 1).outputsLatched ∧ ∃ t, step (okCycle true 1) = .next t ∧ t.relayOut = false :=
  ⟨⟨rfl, fun _ => rfl⟩, of_reaches (by decide +kernel)⟩
theorem witness_StepKeepsRegisterMapCanonical :
    Memory.wf (triggered false false 0 (.cycle quiet (levels true))) = true ∧
      ∃ t, step (triggered false false 0 (.cycle quiet (levels true))) = .next t ∧
        t.hr ≠ (triggered false false 0 (.cycle quiet (levels true))).hr :=
  ⟨by decide +kernel, of_reaches (by decide +kernel)⟩
theorem witness_StepKeepsReceiverPartial :
    (receiving smallParams eightOfNine [.rxByte 0xFF]).receiverPartial ∧
      ∃ t, step (receiving smallParams eightOfNine [.rxByte 0xFF]) = .next t ∧ t.rxBuf = [] := by
  have h : expectedLen eightOfNine = some 9 := by decide +kernel
  have hl : eightOfNine.length = 8 := by decide +kernel
  refine ⟨⟨by decide +kernel, fun n hn => ?_⟩, of_reaches (by decide +kernel)⟩
  have hn' : some 9 = some n := h.symm.trans hn
  show eightOfNine.length < n
  simp only [Option.some.injEq] at hn'
  omega
theorem witness_StepNeverProducesEmergency :
    (triggered false false 0 (.cycle quiet (levels true))).noEmergency ∧
      ∃ t, step (triggered false false 0 (.cycle quiet (levels true))) = .next t ∧ t.sysStatus = .critical :=
  ⟨by unfold State.noEmergency; decide +kernel, of_reaches (by decide +kernel)⟩
theorem witness_StepKeepsFlagsLegal :
    (triggered false false 0 (.cycle quiet (levels true))).flagsLegal ∧
      ∃ t, step (triggered false false 0 (.cycle quiet (levels true))) = .next t ∧ t.di[(0 : Fin 4)].flags = 2 :=
  ⟨by unfold State.flagsLegal; decide +kernel, of_reaches (by decide +kernel)⟩
theorem witness_StepKeepsUnwrittenSpaces :
    State.reset.unwrittenSpaces ∧ ∃ t, step State.reset = .next t ∧ t.ir = [] :=
  ⟨⟨fun _ => rfl, fun _ => rfl, fun _ => rfl⟩, of_reaches (by decide +kernel)⟩
/-- Analog channel 0 enabled, with statistics of earlier readings, its next sample inactive. -/
def measured : State :=
  { (withRegs [(0x1A, 1)]) with
    ai := State.reset.ai.set 0 { AnalogChannel.reset with mv := 800, minMv := 100, maxMv := 65520 }
    inputs := [.cycle quiet (levels false)] }
theorem witness_StepKeepsStatisticsBound :
    measured.statsBound ∧ ∃ t, step measured = .next t ∧ t.ai[(0 : Fin 4)].errors = 1 :=
  ⟨by unfold State.statsBound AnalogChannel.statsBound; decide +kernel, of_reaches (by decide +kernel)⟩
/-- Nine events: a request that enables DI1, byte by byte, and a cycle. -/
def arming : List Event :=
  (encode 0x01 (.wsr 0x26 1)).map Event.rxByte ++ [.cycle quiet (levels false)]
theorem witness_EveryRunIsSafe :
    ∃ t, Host.Core.run Sys2Proof.core 9 { State.resetOf Config.vectorParams with inputs := arming } = .next t ∧
      t.hrGet 0x26 = 1 ∧ sent t = [encode 0x01 (.wsr 0x26 1)] := of_reaches (by decide +kernel)
theorem witness_CanonicalMapIsUnique :
    let s := (withRegs [(0x44, 7), (0x02, 1)]).irSet 0x3 5
    let t := (withRegs [(0x02, 1), (0x44, 9), (0x44, 7)]).irSet 0x3 5
    (Memory.wf s = true ∧ Memory.wf t = true ∧ t.cfg = s.cfg) ∧
      (∀ a, t.hrGet a = s.hrGet a) ∧ (∀ a, t.irGet a = s.irGet a) ∧ (∀ a, t.coilGet a = s.coilGet a) ∧
        ∀ a, t.discInGet a = s.discInGet a := by
  have h : withRegs [(0x02, 1), (0x44, 9), (0x44, 7)] = withRegs [(0x44, 7), (0x02, 1)] := by decide +kernel
  rw [h]
  exact ⟨by decide +kernel, fun _ => rfl, fun _ => rfl, fun _ => rfl, fun _ => rfl⟩

end Sys2Proof.Tests
end

/-! The seven invariants of a running SMCORE, each kept by every step, and the run from reset (spec rules R13, R347,
R380). A step either leaves the monitor alone, or is a cycle, or is a reset; six of the invariants are settled by these
three cases, the receiver's by what becomes of a byte. -/

namespace Sys2Proof.Machine

open Sys2Proof

/-! ## What a request does -/

/-- The write path keeps the canonical form. -/
theorem Memory.wf_resetErrorEffect {a : Nat} {v : Word} {s : State} (h : Memory.wf s = true) :
    Memory.wf (resetErrorEffect a v s) = true := by
  unfold resetErrorEffect
  split
  · have hlt : sysError < s.cfg.holdingRegCount := by unfold sysError Params.holdingRegCount; omega
    exact Memory.wf_hrSet (s := s) 0 hlt h
  · exact h

/-- A run of writes inside the holding space keeps the canonical form. -/
theorem Memory.wf_hrWriteRun :
    ∀ {vs : List Word} {a : Nat} {s t : State}, a + vs.length ≤ s.cfg.holdingRegCount →
      hrWriteRun a vs s = .ok t → Memory.wf s = true → Memory.wf t = true
  | [], _, _, _, _, ht, h => by cases ht; exact h
  | v :: vs, a, s, t, hlen, ht, h => by
    rw [List.length_cons] at hlen
    rw [hrWriteRun, hrWrite_inRange v (by omega)] at ht
    have hcfg : (resetErrorEffect a v (s.hrSet a v)).cfg = s.cfg := by rw [resetErrorEffect_frame]; rfl
    exact Memory.wf_hrWriteRun (by rw [hcfg]; omega) ht (wf_resetErrorEffect (wf_hrSet v (by omega) h))

/-- A read request only answers: its registers, or an exception. -/
theorem readRegisters_transmits (sp : Space) (fc : Byte) (addr qty : Word) (s : State) :
    ∃ resp, readRegisters sp fc addr qty s = .next (transmit resp s) := by
  by_cases h : s.spaceLen sp < addr.toNat + qty.toNat ∨ s.cfg.maxReadQty < qty.toNat
  · exact ⟨_, readRegisters_refused h⟩
  · exact ⟨_, readRegisters_inRange (by omega) (by omega)⟩

/-- Every request writes a run of consecutive holding registers inside the space, an empty one when it reads or is
refused, and then transmits one response. -/
theorem exec_writes_and_transmits (i : Instr) (s : State) :
    ∃ a vs u resp, a + vs.length ≤ s.cfg.holdingRegCount ∧ hrWriteRun a vs s = .ok u ∧
      exec i s = .next (transmit resp u) := by
  have answers_only : (∃ resp, exec i s = .next (transmit resp s)) →
      ∃ a vs u resp, a + vs.length ≤ s.cfg.holdingRegCount ∧ hrWriteRun a vs s = .ok u ∧
        exec i s = .next (transmit resp u) :=
    fun ⟨resp, h⟩ => ⟨0, [], s, resp, Nat.zero_le _, rfl, h⟩
  cases i with
  | rhr addr qty => exact answers_only (readRegisters_transmits .holding 0x03 addr qty s)
  | rir addr qty => exact answers_only (readRegisters_transmits .input 0x04 addr qty s)
  | wsr addr value =>
    by_cases h : addr.toNat < s.cfg.holdingRegCount
    · refine ⟨addr.toNat, [value], _, _, h, ?_, execWsr_inRange h⟩
      rw [hrWriteRun, hrWrite_inRange value h]
      rfl
    · exact answers_only ⟨_, if_pos (by omega)⟩
  | wmr addr qty bc data =>
    by_cases h : s.cfg.holdingRegCount < addr.toNat + qty.toNat ∨ bc.toNat ≠ 2 * qty.toNat
    · exact answers_only ⟨_, execWmr_refused h⟩
    · obtain ⟨u, hu, he⟩ := execWmr_inRange (s := s) (data := data)
        (show addr.toNat + qty.toNat ≤ s.cfg.holdingRegCount by omega) (show bc.toNat = 2 * qty.toNat by omega)
      exact ⟨_, _, u, _, by rw [dataWords_length]; omega, hu, he⟩
  | illegal fc _ _ _ _ => exact answers_only ⟨_, rfl⟩

/-! ## What a step does -/

/-- The monitor's state is the same in both states, but for the latch, which may have been cleared; so are the
parameters and the spaces that no rule writes, and the register map has stayed canonical. -/
structure MonitorKept (s t : State) : Prop where
  frame : t = { s with
    hr := t.hr, resetRequired := t.resetRequired, rxBuf := t.rxBuf, uptimeMs := t.uptimeMs, inputs := t.inputs,
    txLog := t.txLog, txCount := t.txCount }
  latch : t.resetRequired = true → s.resetRequired = true
  map : Memory.wf s = true → Memory.wf t = true

theorem MonitorKept.refl (s : State) : MonitorKept s s := ⟨rfl, id, id⟩

theorem MonitorKept.trans {s t u : State} (h : MonitorKept s t) (h' : MonitorKept t u) : MonitorKept s u :=
  ⟨by rw [h'.frame, h.frame], h.latch ∘ h'.latch, h'.map ∘ h.map⟩

theorem MonitorKept.setInputs (s : State) (es : List Event) : MonitorKept s (s.setInputs es) := ⟨rfl, id, id⟩

theorem MonitorKept.setRxBuf (s : State) (f : List Byte) : MonitorKept s (s.setRxBuf f) := ⟨rfl, id, id⟩

theorem MonitorKept.setUptime (s : State) (n : Word32) : MonitorKept s (s.setUptime n) := ⟨rfl, id, id⟩

/-- A reset leaves what the reset state holds, but for the environment's side of the ports (rule R380). -/
theorem MonitorKept.onReset (s : State) : MonitorKept (State.resetOf s.cfg) (onReset s) := ⟨rfl, id, id⟩

/-- A request leaves all but the registers, the latch and the transmit port alone, and can only clear the latch
(rules R177, R222). -/
theorem exec_keeps_monitor {i : Instr} {s t : State} (h : exec i s = .next t) :
    RequestFrame s t ∧ MonitorKept s t := by
  obtain ⟨a, vs, u, resp, hlen, hrun, he⟩ := exec_writes_and_transmits i s
  obtain ⟨u', hrun', hframe, -, hcmd, hno⟩ := hrWriteRun_inRange hlen
  obtain rfl : u' = u := Except.ok.inj (hrun'.symm.trans hrun)
  obtain rfl : transmit resp u' = t := Host.Outcome.next.inj (he.symm.trans h)
  have latch : u'.resetRequired = true → s.resetRequired = true := by
    by_cases hc : runGivesResetError a vs
    · simp [(hcmd hc).2]
    · simp [hno hc]
  have map : Memory.wf s = true → Memory.wf u' = true := Memory.wf_hrWriteRun hlen hrun
  refine ⟨?_, ?_, latch, map⟩
  · rw [RequestFrame, hframe]
    rfl
  · rw [hframe]
    rfl

/-- A byte leaves the monitor alone, whatever becomes of it (rules R161, R162, R177). -/
theorem onRxByte_keeps_monitor {b : Byte} {s t : State} (h : onRxByte b s = .next t) : MonitorKept s t := by
  obtain ⟨-, -, rfl⟩ | ⟨-, rfl⟩ | ⟨-, -, ⟨i, -, he⟩ | ⟨e, -, rfl⟩⟩ := onRxByte_cases h
  · exact .setRxBuf s _
  · exact .setRxBuf s _
  · exact (MonitorKept.setRxBuf s _).trans (exec_keeps_monitor he).2
  · exact .setRxBuf s _

/-- A step leaves the monitor alone, or is a cycle, or is a reset. -/
theorem step_kinds {s t : State} (h : step s = .next t) :
    MonitorKept s t ∨ (∃ a d es, s.inputs = .cycle a d :: es ∧ t = runCycle a d (s.setInputs es)) ∨
      ∃ es, s.inputs = .reset :: es ∧ t = onReset (s.setInputs es) := by
  obtain ⟨-, rfl⟩ | ⟨b, es, -, hb⟩ | ⟨es, -, rfl⟩ | ⟨es, -, -, rfl⟩ | hcycle | ⟨es, -, rfl⟩ | hreset := step_cases h
  · exact .inl (.refl t)
  · exact .inl ((MonitorKept.setInputs s es).trans (onRxByte_keeps_monitor hb))
  · exact .inl ((MonitorKept.setInputs s es).trans (.setRxBuf _ _))
  · exact .inl ((MonitorKept.setInputs s es).trans (.setRxBuf _ _))
  · exact .inr (.inl hcycle)
  · exact .inl ((MonitorKept.setInputs s es).trans (.setUptime _ _))
  · exact .inr (.inr hreset)

@[simp] theorem State.resetOf_ai (p : Params) (i : Fin 4) : (State.resetOf p).ai[i] = AnalogChannel.reset := by
  simp [State.resetOf]

@[simp] theorem State.resetOf_di (p : Params) (i : Fin 4) : (State.resetOf p).di[i] = DigitalChannel.reset := by
  simp [State.resetOf]

/-- What makes a property of the monitor and the register map an invariant, by the kinds of step. -/
structure MonitorInvariant (P : State → Prop) : Prop where
  kept : ∀ {s t : State}, MonitorKept s t → P s → P t
  cycle : ∀ {a : Vector Raw12 4} {d : Vector Bool 4} {s t : State}, runCycle a d s = t → P s → P t
  reset : ∀ p : Params, P (State.resetOf p)

/-- Every step keeps it. -/
theorem MonitorInvariant.step {P : State → Prop} (inv : MonitorInvariant P) {s t : State} (hs : P s)
    (h : step s = .next t) : P t := by
  obtain hkept | ⟨a, d, es, -, rfl⟩ | ⟨es, -, rfl⟩ := step_kinds h
  · exact inv.kept hkept hs
  · exact inv.cycle rfl (inv.kept (.setInputs s es) hs)
  · exact inv.kept (.onReset _) (inv.reset _)

/-! ## The register map -/

theorem Memory.wf_analogStep (i : Fin 4) (raw : Raw12) {s : State} (h : Memory.wf s = true) :
    Memory.wf (analogStep i raw s) = true := by
  unfold analogStep analogReading
  split
  · split
    · exact h
    · exact Memory.wf_hrSet (s := s.setAi i _) _ (publishedAddrs_lt s.cfg (aiValueAddr_mem i)) h
  · exact h

theorem Memory.wf_digitalStep (i : Fin 4) (lvl : Bool) (now : Word32) {s : State} (h : Memory.wf s = true) :
    Memory.wf (digitalStep i lvl now s) = true := by
  unfold digitalStep
  split
  · exact Memory.wf_hrSet (s := s.setDi i _) _ (publishedAddrs_lt s.cfg (diStatusAddr_mem i)) h
  · exact h

theorem Memory.wf_sampleAnalog (a : Vector Raw12 4) {s : State} (h : Memory.wf s = true) :
    Memory.wf (sampleAnalog a s) = true := by
  unfold sampleAnalog
  generalize channels = l
  induction l generalizing s with
  | nil => exact h
  | cons i l ih => exact ih (wf_analogStep i a[i] h)

theorem Memory.wf_sampleDigital (d : Vector Bool 4) (now : Word32) {s : State} (h : Memory.wf s = true) :
    Memory.wf (sampleDigital d now s) = true := by
  unfold sampleDigital
  generalize channels = l
  induction l generalizing s with
  | nil => exact h
  | cons i l ih => exact ih (wf_digitalStep i d[i] now h)

theorem Memory.wf_publish (agg : Status) {s : State} (h : Memory.wf s = true) : Memory.wf (publish agg s) = true := by
  have hlt : ∀ x ∈ publishedAddrs, x < s.cfg.holdingRegCount := fun _ => publishedAddrs_lt s.cfg
  exact wf_hrSet _ (hlt 0x5 (by decide)) <| wf_hrSet _ (hlt 0x4 (by decide)) <| wf_hrSet _ (hlt 0x3 (by decide)) <|
    wf_hrSet _ (hlt 0x2 (by decide)) <| wf_hrSet _ (hlt 0x0 (by decide)) h

/-- Counting, driving the outputs and noting the check write no register. -/
theorem Memory.wf_concludeCycle (agg : Status) (now : Word32) {s : State} (h : Memory.wf s = true) :
    Memory.wf (concludeCycle agg now s) = true := by
  have hdecided : Memory.wf (decided agg s) = true := by
    rw [decided_frame]
    exact h
  exact (Memory.wf_congr rfl rfl rfl rfl rfl).trans (wf_publish agg hdecided)

/-- A cycle writes published registers only, all of them inside the space (rules R93, R320). -/
theorem Memory.wf_runCycle (a : Vector Raw12 4) (d : Vector Bool 4) {s : State} (h : Memory.wf s = true) :
    Memory.wf (runCycle a d s) = true :=
  wf_concludeCycle _ _ (wf_sampleDigital d s.uptimeMs (wf_sampleAnalog a h))

theorem mapCanonical_invariant : MonitorInvariant fun s => Memory.wf s = true where
  kept h := h.map
  cycle h := h ▸ Memory.wf_runCycle _ _
  reset := Memory.wf_resetOf

/-- The input registers, coils and discrete inputs have no writer (rules R33, R34). -/
theorem unwrittenSpaces_invariant : MonitorInvariant State.unwrittenSpaces where
  kept h hs := by
    rw [h.frame]
    exact hs
  cycle h hs := by
    obtain ⟨-, hframe, -⟩ := runCycle_spec rfl h
    rw [hframe]
    exact hs
  reset _ := ⟨fun _ => rfl, fun _ => rfl, fun _ => rfl⟩

/-! ## The analog channels -/

/-- A classification gives one of the legal pairs (rules R61, R267). -/
theorem classifyDist_mem_legalZones (s : State) (d : Dist) : s.classifyDist d ∈ legalZones := by
  unfold State.classifyDist
  obtain ⟨-, h⟩ | ⟨-, ⟨-, h⟩ | ⟨-, ⟨-, h⟩ | ⟨-, ⟨-, h⟩ | ⟨-, ⟨-, h⟩ | ⟨-, h⟩⟩⟩⟩⟩ :=
    classify_cases (s.hrGet 0x44) (s.hrGet 0x45) (s.hrGet 0x46) (s.hrGet 0x47) d
  all_goals rw [h]; decide

/-- No legal pair has status EMERGENCY (rule R330). -/
theorem legalZones_ne_emergency {z : Status × Byte} (h : z ∈ legalZones) : z.1 ≠ .emergency := by
  revert z
  decide

/-- A cycle leaves an analog channel alone, or records a read error or a good reading (rules R262, R268, R269). -/
theorem State.aiAfter_cases (s : State) (i : Fin 4) (raw : Raw12) :
    s.aiAfter i raw = s.ai[i] ∨ ∃ d, s.aiAfter i raw = s.ai[i].readError raw (s.classifyDist d) ∨
      s.aiAfter i raw = s.ai[i].goodReading raw (s.classifyDist d) d (millivolts s.cfg raw) := by
  unfold State.aiAfter
  split
  · refine .inr ⟨s.distance raw, ?_⟩
    split
    · exact .inl rfl
    · exact .inr rfl
  · exact .inl rfl

/-- A cycle leaves an analog channel with the pair it had, or with one that a classification gives. -/
theorem State.aiAfter_zone (s : State) (i : Fin 4) (raw : Raw12) :
    ((s.aiAfter i raw).status, (s.aiAfter i raw).flags) = (s.ai[i].status, s.ai[i].flags) ∨
      ((s.aiAfter i raw).status, (s.aiAfter i raw).flags) ∈ legalZones := by
  obtain h | ⟨d, h | h⟩ := s.aiAfter_cases i raw
  · exact .inl (by rw [h])
  · exact .inr (by rw [h]; exact classifyDist_mem_legalZones s d)
  · exact .inr (by rw [h]; exact classifyDist_mem_legalZones s d)

/-- The processed value is exact and fits its register, whatever V_REF_MV is (rule R266). -/
theorem millivolts_toNat (p : Params) (raw : Raw12) :
    (millivolts p raw).toNat = raw.toNat * p.vRefMv / 4096 ∧ (millivolts p raw).toNat ≤ 65520 := by
  have hraw : raw.toNat ≤ 4095 := by have := raw.isLt; omega
  have href : p.vRefMv ≤ 65536 := by unfold Params.vRefMv; omega
  have hprod : raw.toNat * p.vRefMv ≤ 4095 * 65536 := Nat.mul_le_mul hraw href
  rw [millivolts, BitVec.toNat_ofNat, Nat.mod_eq_of_lt (by omega)]
  exact ⟨rfl, by omega⟩

/-- A good reading enters the statistics, the first one as their only value (rule R269). -/
theorem AnalogChannel.statsBound_goodReading {c : AnalogChannel} {raw : Raw12} {zone : Status × Byte} {d : Dist}
    {mv : Word} (h : c.statsBound) (hmv : mv.toNat ≤ 65520) : (c.goodReading raw zone d mv).statsBound := by
  have hmin := wordMin_toNat c.minMv mv
  have hmax := wordMax_toNat c.maxMv mv
  refine .inr (show (wordMin c.minMv mv).toNat ≤ mv.toNat ∧ mv.toNat ≤ (wordMax c.maxMv mv).toNat ∧
    (wordMax c.maxMv mv).toNat ≤ 65520 from ?_)
  obtain ⟨-, hmax0, -⟩ | ⟨-, -, hle⟩ := h
  · have hzero : c.maxMv.toNat = 0 := by rw [hmax0]; rfl
    omega
  · omega

theorem State.statsBound_aiAfter {s : State} {i : Fin 4} (raw : Raw12) (h : s.ai[i].statsBound) :
    (s.aiAfter i raw).statsBound := by
  obtain he | ⟨d, he | he⟩ := s.aiAfter_cases i raw
  · rwa [he]
  · rw [he]
    exact h
  · rw [he]
    exact AnalogChannel.statsBound_goodReading h (millivolts_toNat s.cfg raw).2

theorem statsBound_invariant : MonitorInvariant State.statsBound where
  kept h hs := by
    rw [h.frame]
    exact hs
  cycle h hs i := by
    obtain ⟨-, -, hai, -⟩ := runCycle_spec rfl h
    rw [hai]
    exact State.statsBound_aiAfter _ (hs i)
  reset p i := by
    rw [State.resetOf_ai]
    exact .inl ⟨rfl, rfl, rfl⟩

/-! ## The digital channels -/

/-- A cycle leaves a digital channel alone, or samples it and sets the flags of the debounced state it leaves (rules
R275, R279). -/
theorem State.diAfter_flags {s : State} {i : Fin 4} (lvl : Bool) (now : Word32)
    (h : s.di[i].flags = if s.di[i].active then 0x02 else 0x00) :
    (s.diAfter i lvl now).flags = if (s.diAfter i lvl now).active then 0x02 else 0x00 := by
  unfold State.diAfter
  split
  · rfl
  · exact h

/-- A sample counts no digital error (rule R279). -/
theorem State.diAfter_errors (s : State) (i : Fin 4) (lvl : Bool) (now : Word32) :
    (s.diAfter i lvl now).errors = s.di[i].errors := by
  unfold State.diAfter
  split <;> rfl

theorem flagsLegal_invariant : MonitorInvariant State.flagsLegal where
  kept h hs := by
    rw [h.frame]
    exact hs
  cycle {a d s t} h hs := by
    obtain ⟨hai, hdi⟩ := hs
    obtain ⟨-, -, hai', hdi', -⟩ := runCycle_spec rfl h
    refine ⟨fun i => ?_, fun i => ?_⟩
    · rw [hai']
      obtain hsame | hnew := s.aiAfter_zone i a[i]
      · exact hsame ▸ hai i
      · exact hnew
    · rw [hdi']
      exact State.diAfter_flags _ _ (hdi i)
  reset p := ⟨fun i => by rw [State.resetOf_ai]; decide, fun i => by rw [State.resetOf_di]; decide⟩

/-! ## Emergency and the outputs -/

/-- Nothing produces EMERGENCY or a digital error (rules R279, R330). -/
theorem noEmergency_invariant : MonitorInvariant State.noEmergency where
  kept h hs := by
    rw [h.frame]
    exact hs
  cycle {a d s t} h hs := by
    obtain ⟨hcount, hestop, -, hai, hdi⟩ := hs
    obtain ⟨-, hframe, hai', hdi', ⟨hagg, -⟩, -, -, hemerg, -⟩ := runCycle_spec rfl h
    refine ⟨hemerg.trans hcount, ?_, ?_, fun i => ?_, fun i => ?_⟩
    · rw [hframe]
      exact hestop
    · rw [hagg]
      exact precedence_ne_emergency _
    · rw [hai']
      obtain hsame | hnew := s.aiAfter_zone i a[i]
      · rw [(Prod.mk.inj hsame).1]
        exact hai i
      · exact legalZones_ne_emergency hnew
    · rw [hdi', State.diAfter_errors]
      exact hdi i
  reset p := by
    refine ⟨rfl, rfl, by simp [State.resetOf], fun i => ?_, fun i => ?_⟩
    · rw [State.resetOf_ai]
      decide
    · rw [State.resetOf_di]
      rfl

/-- An aggregate that leaves the latch set leaves an output asserted that was asserted with the latch (rules R301 to
R303). -/
theorem drivenTo_asserted {agg : Status} {out latch keep : Bool} (h : latch = true → out = true)
    (hl : drivenTo agg latch keep = true) : drivenTo agg out (latch && keep) = true := by
  unfold drivenTo at *
  split
  · rfl
  · next hc =>
    rw [if_neg hc] at hl
    split
    · next hok =>
      rw [if_pos hok, Bool.and_eq_true] at hl
      simp [hl, h]
    · next hok =>
      rw [if_neg hok] at hl
      exact h hl

theorem outputsLatched_invariant : MonitorInvariant State.outputsLatched where
  kept {s t} h hs := by
    obtain ⟨heq, hlatch⟩ := hs
    have hrelay : t.relayOut = s.relayOut := by rw [h.frame]
    have hind : t.indOut = s.indOut := by rw [h.frame]
    exact ⟨by rw [hrelay, hind, heq], fun ht => hrelay.trans (hlatch (h.latch ht))⟩
  cycle h hs := by
    obtain ⟨heq, hlatch⟩ := hs
    obtain ⟨-, -, -, -, -, -, -, -, hrelay, hind, hreq, -⟩ := runCycle_spec rfl h
    refine ⟨by rw [hrelay, hind, heq], fun ht => ?_⟩
    rw [hrelay]
    exact drivenTo_asserted hlatch (hreq ▸ ht)
  reset _ := ⟨rfl, fun h => h⟩

/-! ## The receiver -/

/-- While the length is unknown there are fewer than seven bytes (rule R132). -/
theorem length_lt_of_expectedLen_none {f : List Byte} (h : expectedLen f = none) : f.length < 7 := by
  by_contra hlen
  by_cases hc : byteAt f 1 = 0x10
  · cases (expectedLen_wmr (by omega) hc).symm.trans h
  · cases (expectedLen_eight (by omega) hc).symm.trans h

/-- No format is shorter than eight bytes (rules R122, R132). -/
theorem eight_le_expectedLen {f : List Byte} {n : Nat} (h : expectedLen f = some n) : 8 ≤ n := by
  unfold expectedLen at h
  split at h
  · cases h
  · split at h
    · split at h
      · cases h
      · cases h; omega
    · cases h; omega

/-- A byte that does not complete the partial frame leaves it partial: a length that was known is still the same, and
one that the byte makes known is at least eight. -/
theorem lt_expectedLen_append {f : List Byte} {b : Byte} {n : Nat}
    (hpart : ∀ m, expectedLen f = some m → f.length < m) (hne : expectedLen (f ++ [b]) ≠ some (f.length + 1))
    (h : expectedLen (f ++ [b]) = some n) : f.length + 1 < n := by
  cases hf : expectedLen f with
  | none =>
    have := length_lt_of_expectedLen_none hf
    have := eight_le_expectedLen h
    omega
  | some m =>
    obtain rfl : m = n := Option.some.inj ((expectedLen_append hf [b]).symm.trans h)
    have := hpart m hf
    have : m ≠ f.length + 1 := fun e => hne (e ▸ h)
    omega

/-- The receiver's invariant depends on the parameters and the buffer alone. -/
theorem receiverPartial_congr {s t : State} (hcfg : t.cfg = s.cfg) (hbuf : t.rxBuf = s.rxBuf)
    (h : s.receiverPartial) : t.receiverPartial := by
  unfold State.receiverPartial
  rwa [hcfg, hbuf]

theorem receiverPartial_of_idle {s : State} (h : s.rxBuf = []) : s.receiverPartial := by
  unfold State.receiverPartial
  rw [h]
  exact ⟨Nat.zero_le _, fun n hn => nomatch hn⟩

theorem onRxByte_keeps_receiverPartial {b : Byte} {s t : State} (hs : s.receiverPartial)
    (h : onRxByte b s = .next t) : t.receiverPartial := by
  obtain ⟨hlen, hne, rfl⟩ | ⟨-, rfl⟩ | ⟨-, -, ⟨i, -, he⟩ | ⟨e, -, rfl⟩⟩ := onRxByte_cases h
  · have hlen' : (s.rxBuf ++ [b]).length = s.rxBuf.length + 1 := by simp
    refine ⟨?_, fun n hn => ?_⟩
    · rw [State.setRxBuf_rxBuf, State.setRxBuf_cfg, hlen']
      omega
    · rw [State.setRxBuf_rxBuf] at hn ⊢
      rw [hlen']
      exact lt_expectedLen_append hs.2 hne hn
  · exact receiverPartial_of_idle rfl
  · have hframe : RequestFrame (s.setRxBuf []) t := (exec_keeps_monitor he).1
    exact receiverPartial_of_idle (by rw [hframe]; rfl)
  · exact receiverPartial_of_idle rfl

/-- Every step keeps the receiver's frame partial (rules R63, R162, R163). -/
theorem step_keeps_receiverPartial {s t : State} (hs : s.receiverPartial) (h : step s = .next t) :
    t.receiverPartial := by
  obtain ⟨-, rfl⟩ | ⟨b, es, -, hb⟩ | ⟨es, -, rfl⟩ | ⟨es, -, -, rfl⟩ | ⟨a, d, es, -, ht⟩ | ⟨es, -, rfl⟩ | ⟨es, -, rfl⟩ :=
    step_cases h
  · exact hs
  · exact onRxByte_keeps_receiverPartial (s := s.setInputs es) hs hb
  · exact receiverPartial_of_idle rfl
  · exact receiverPartial_of_idle rfl
  · obtain ⟨-, hframe, -⟩ := runCycle_spec rfl ht.symm
    exact receiverPartial_congr (s := s) (by rw [hframe]; rfl) (by rw [hframe]; rfl) hs
  · exact receiverPartial_congr (s := s) rfl rfl hs
  · exact receiverPartial_of_idle rfl

/-! ## Runs -/

/-- Every reset state is safe, whatever events are loaded. -/
theorem safe_resetOf_setInputs (p : Params) (es : List Event) : ((State.resetOf p).setInputs es).safe :=
  ⟨mapCanonical_invariant.reset p, receiverPartial_of_idle rfl, noEmergency_invariant.reset p,
    outputsLatched_invariant.reset p, flagsLegal_invariant.reset p, unwrittenSpaces_invariant.reset p,
    statsBound_invariant.reset p⟩

/-- Every step keeps all seven invariants. -/
theorem step_keeps_safe {s t : State} (hs : s.safe) (h : step s = .next t) : t.safe := by
  obtain ⟨hmap, hrx, hemerg, hout, hflags, hspaces, hstats⟩ := hs
  exact ⟨mapCanonical_invariant.step hmap h, step_keeps_receiverPartial hrx h, noEmergency_invariant.step hemerg h,
    outputsLatched_invariant.step hout h, flagsLegal_invariant.step hflags h, unwrittenSpaces_invariant.step hspaces h,
    statsBound_invariant.step hstats h⟩

/-- What every step keeps holds after any run. -/
theorem run_keeps {P : State → Prop} (hstep : ∀ {s t : State}, P s → step s = .next t → P t) :
    ∀ {n : Nat} {s t : State}, P s → Host.Core.run Sys2Proof.core n s = .next t → P t
  | 0, _, _, hs, h => by cases h; exact hs
  | n + 1, _, _, hs, h => by
    obtain ⟨u, hu, hrun⟩ := run_succ h
    exact run_keeps hstep (hstep hs hu) hrun

/-- Settles O59: the reset state with its events is safe, and every step of the run keeps it so. -/
theorem everyRunIsSafe : Obligations.EveryRunIsSafe := by
  intro p events n t h
  exact run_keeps step_keeps_safe (safe_resetOf_setInputs p events) h

end Sys2Proof.Machine

/-! The statements about the state, each settled by one argument: the latch by the kinds of step (spec rules R222, R310,
R381), the kept properties by the invariants above, the reset values by the table of rule R35, and the canonical map by
what its first cell reads. -/

namespace Sys2Proof.Machine

open Sys2Proof

/-! ## The latch -/

/-- A run of the words of a 0x10 request gives the reset-error command when the request does (rules R221, R222). -/
theorem givesResetError_of_runGivesResetError {addr qty : Word} {data : List Byte} (bc : Byte)
    (h : runGivesResetError addr.toNat (dataWords data qty.toNat)) : (Instr.wmr addr qty bc data).givesResetError := by
  obtain ⟨hle, hlt, hone⟩ := h
  rw [dataWords_length] at hlt
  have hk : 0x109 - addr.toNat < qty.toNat := by omega
  rw [dataWords_getD data hk] at hone
  exact ⟨0x109 - addr.toNat, hk, by omega, hone⟩

/-- A request leaves the latch as it is, unless it gives the reset-error command and is executed normally (rules R222,
R310). -/
theorem exec_latch {i : Instr} {s t : State} (h : exec i s = .next t) :
    t.resetRequired = s.resetRequired ∨ (i.givesResetError ∧ exceptionOf s.cfg i = none) := by
  have answers_only : ∀ {resp}, exec i s = .next (transmit resp s) → t.resetRequired = s.resetRequired := by
    intro resp he
    obtain rfl := Host.Outcome.next.inj (h.symm.trans he)
    rfl
  cases i with
  | rhr addr qty =>
    obtain ⟨resp, he⟩ := readRegisters_transmits .holding 0x03 addr qty s
    exact .inl (answers_only he)
  | rir addr qty =>
    obtain ⟨resp, he⟩ := readRegisters_transmits .input 0x04 addr qty s
    exact .inl (answers_only he)
  | wsr addr value =>
    by_cases hr : s.cfg.holdingRegCount ≤ addr.toNat
    · exact .inl (answers_only (if_pos hr))
    · obtain rfl := Host.Outcome.next.inj (h.symm.trans (execWsr_inRange (by omega)))
      by_cases hc : addr.toNat = 0x109 ∧ value = 1
      · exact .inr ⟨hc, if_neg hr⟩
      · exact .inl ((resetRequired_resetErrorEffect _ _ _).trans (if_neg hc))
  | wmr addr qty bc data =>
    by_cases hr : s.cfg.holdingRegCount < addr.toNat + qty.toNat ∨ bc.toNat ≠ 2 * qty.toNat
    · exact .inl (answers_only (execWmr_refused hr))
    · have hlen : addr.toNat + (dataWords data qty.toNat).length ≤ s.cfg.holdingRegCount := by
        rw [dataWords_length]
        omega
      obtain ⟨u, hu, he⟩ := execWmr_inRange (s := s) (addr := addr) (qty := qty) (bc := bc) (data := data)
        (by omega) (by omega)
      obtain ⟨u', hu', -, -, -, hkept⟩ := hrWriteRun_inRange hlen
      obtain rfl : u' = u := Except.ok.inj (hu'.symm.trans hu)
      obtain rfl := Host.Outcome.next.inj (h.symm.trans he)
      by_cases hc : runGivesResetError addr.toNat (dataWords data qty.toNat)
      · exact .inr ⟨givesResetError_of_runGivesResetError bc hc, if_neg hr⟩
      · exact .inl (hkept hc)
  | illegal fc _ _ _ _ => exact .inl (answers_only rfl)

/-- A byte leaves the latch as it is, unless it completes a request that clears it. -/
theorem onRxByte_latch {b : Byte} {s t : State} (h : onRxByte b s = .next t) :
    t.resetRequired = s.resetRequired ∨
      ∃ i, decode s.cfg.slaveAddr (s.rxBuf ++ [b]) = .ok i ∧ i.givesResetError ∧ exceptionOf s.cfg i = none := by
  obtain ⟨-, -, rfl⟩ | ⟨-, rfl⟩ | ⟨-, -, ⟨i, hi, he⟩ | ⟨e, -, rfl⟩⟩ := onRxByte_cases h
  · exact .inl rfl
  · exact .inl rfl
  · exact (exec_latch he).imp id fun hclears => ⟨i, hi, hclears⟩
  · exact .inl rfl

/-- What a cycle's aggregate does to the latch (rules R301 to R303). -/
theorem runCycle_latch {a : Vector Raw12 4} {d : Vector Bool 4} {s t : State} (h : runCycle a d s = t) :
    t.resetRequired = drivenTo t.sysStatus s.resetRequired (!s.autoReset) := by
  obtain ⟨-, -, -, -, -, -, -, -, -, -, hlatch, -⟩ := runCycle_spec rfl h
  exact hlatch

/-- Only CRITICAL sets what was clear (rule R301). -/
theorem critical_of_drivenTo {agg : Status} {keep : Bool} (h : drivenTo agg false keep = true) : agg = .critical := by
  cases agg with
  | critical => rfl
  | _ => cases h

/-- Only OK clears what was set, and only what is not to be kept (rule R302). -/
theorem ok_of_drivenTo {agg : Status} {keep : Bool} (h : drivenTo agg true keep = false) :
    agg = .ok ∧ keep = false := by
  cases agg with
  | ok => exact ⟨rfl, h⟩
  | _ => cases h

/-- The latch becomes set only in a CRITICAL cycle: no other step but a reset touches the monitor, and a request can
only clear it. -/
theorem step_sets_latch {s t : State} (h : step s = .next t) (hs : s.resetRequired = false)
    (ht : t.resetRequired = true) : ∃ a d es, s.inputs = .cycle a d :: es ∧ t.sysStatus = .critical := by
  obtain hkept | ⟨a, d, es, hi, he⟩ | ⟨es, -, rfl⟩ := step_kinds h
  · cases hs.symm.trans (hkept.latch ht)
  · have hlatch := runCycle_latch he.symm
    rw [State.setInputs_resetRequired, hs, ht] at hlatch
    exact ⟨a, d, es, hi, critical_of_drivenTo hlatch.symm⟩
  · cases ht

/-- The latch becomes clear only in an OK cycle under auto-reset, by a request that gives the reset-error command, or by
a reset. -/
theorem step_clears_latch {s t : State} (h : step s = .next t) (hs : s.resetRequired = true)
    (ht : t.resetRequired = false) :
    (∃ a d es, s.inputs = .cycle a d :: es ∧ t.sysStatus = .ok ∧ s.hrGet 0x4A ≠ 0) ∨
      (∃ b es i, s.inputs = .rxByte b :: es ∧ decode s.cfg.slaveAddr (s.rxBuf ++ [b]) = .ok i ∧
        i.givesResetError ∧ exceptionOf s.cfg i = none) ∨
      ∃ es, s.inputs = .reset :: es := by
  have changed : t.resetRequired ≠ s.resetRequired := by rw [hs, ht]; decide
  obtain ⟨-, rfl⟩ | ⟨b, es, hi, hb⟩ | ⟨es, -, rfl⟩ | ⟨es, -, -, rfl⟩ | ⟨a, d, es, hi, he⟩ | ⟨es, -, rfl⟩ |
    ⟨es, hi, -⟩ := step_cases h
  · exact absurd rfl changed
  · obtain ⟨i, hclears⟩ := (onRxByte_latch hb).resolve_left changed
    exact .inr (.inl ⟨b, es, i, hi, hclears⟩)
  · exact absurd rfl changed
  · exact absurd rfl changed
  · have hlatch := runCycle_latch he.symm
    rw [State.setInputs_resetRequired, hs, ht] at hlatch
    obtain ⟨hok, hauto⟩ := ok_of_drivenTo hlatch.symm
    exact .inl ⟨a, d, es, hi, hok, by simpa [State.autoReset] using hauto⟩
  · exact absurd rfl changed
  · exact .inr (.inr ⟨es, hi⟩)

/-- Settles O49, by the event of the step. -/
theorem latchIsSetAndClearedOnlyAsStated : Obligations.LatchIsSetAndClearedOnlyAsStated :=
  fun _ _ h => ⟨step_sets_latch h, step_clears_latch h⟩

/-! ## What every step keeps -/

/-- Settles O53, by what becomes of a byte. -/
theorem stepKeepsReceiverPartial : Obligations.StepKeepsReceiverPartial :=
  fun _ _ => step_keeps_receiverPartial

/-- Settles O55, by the kinds of step: a cycle's pairs come from a classification or from the debounced state. -/
theorem stepKeepsFlagsLegal : Obligations.StepKeepsFlagsLegal :=
  fun _ _ => flagsLegal_invariant.step

/-- Settles O57, by the kinds of step: a cycle enters a good reading, which is at most 65520, into the statistics. -/
theorem stepKeepsStatisticsBound : Obligations.StepKeepsStatisticsBound :=
  fun _ _ => statsBound_invariant.step

/-- Settles O56, by the kinds of step: none writes one of the three spaces. -/
theorem stepKeepsUnwrittenSpaces : Obligations.StepKeepsUnwrittenSpaces :=
  fun _ _ => unwrittenSpaces_invariant.step

/-! ## The reset values -/

/-- The step of a reset event (rule R380). -/
theorem step_reset {s : State} {es : List Event} (h : s.inputs = .reset :: es) :
    step s = .next (onReset (s.setInputs es)) := by
  rw [step, stepEvent, h]
  rfl

/-- The registers with a reset value of their own (rule R35). -/
theorem holdingReset_listed (p : Params) :
    ∀ c ∈ [(0x14, 2786), (0x15, 115), (0x44, 500), (0x45, 1000), (0x46, 1500), (0x47, 2000), (0x48, 100), (0x49, 50),
      (0x4B, (1 : Word))], holdingReset p c.1 = c.2 := by
  simp [holdingReset]

/-- From 0x100 on the reset values are DEVICE_DEFAULTS, and 0 beyond them (rule R55). -/
theorem holdingReset_device (p : Params) (k : Nat) : holdingReset p (0x100 + k) = p.deviceDefaults.toList.getD k 0 := by
  unfold holdingReset
  repeat rw [if_neg (by omega)]
  rw [if_pos (by omega), Nat.add_sub_cancel_left]

/-- Every register of neither kind resets to 0 (rule R35). -/
theorem holdingReset_other (p : Params) {a : Nat}
    (hl : a ∉ [0x14, 0x15, 0x44, 0x45, 0x46, 0x47, 0x48, 0x49, 0x4B]) (hd : a < 0x100 ∨ 0x109 < a) :
    holdingReset p a = 0 := by
  obtain hlow | hhigh := hd
  · simp only [List.mem_cons, List.not_mem_nil, or_false, not_or] at hl
    simp [holdingReset, hl, hlow]
  · obtain ⟨k, rfl⟩ := Nat.exists_eq_add_of_le (show 0x100 ≤ a by omega)
    rw [holdingReset_device, List.getD_eq_default _ _ (by rw [Vector.length_toList]; omega)]

/-- Settles O46: nothing is listed after a reset, so every address reads its reset value, and the other fields are those
of the reset state. -/
theorem resetEventRestoresEverything : Obligations.ResetEventRestoresEverything := by
  intro s es h
  refine ⟨onReset (s.setInputs es), step_reset h, rfl, holdingReset_listed s.cfg, fun k => ?_,
    fun a => holdingReset_other s.cfg, fun _ => rfl, fun _ => rfl, fun _ => rfl, fun i => ?_, fun i => ?_, rfl, rfl, rfl,
    rfl, rfl, rfl, rfl, rfl, rfl, rfl, rfl⟩
  · have hread : holdingReset s.cfg (0x100 + k.val) = s.cfg.deviceDefaults[k] := by
      rw [holdingReset_device, List.getD_eq_getElem _ _ (by rw [Vector.length_toList]; exact k.isLt)]
      exact Vector.getElem_toList _
    exact hread
  · have hi : (onReset (s.setInputs es)).ai[i] = AnalogChannel.reset := State.resetOf_ai s.cfg i
    rw [hi]
    exact ⟨rfl, rfl, rfl, rfl, rfl, rfl, rfl, rfl⟩
  · have hi : (onReset (s.setInputs es)).di[i] = DigitalChannel.reset := State.resetOf_di s.cfg i
    rw [hi]
    exact ⟨rfl, rfl, rfl, rfl, rfl, rfl, rfl, rfl⟩

/-! ## The canonical form -/

section Canonical

variable {α : Type} {reset : Nat → α} {len : Nat}

@[simp] theorem cellsRead_cons_same (a : Nat) (v : α) (m : Cells α) : cellsRead reset ((a, v) :: m) a = v :=
  if_pos rfl

theorem cellsRead_cons_other {a x : Nat} (v : α) (m : Cells α) (h : a ≠ x) :
    cellsRead reset ((a, v) :: m) x = cellsRead reset m x :=
  if_neg h

variable [DecidableEq α]

/-- The canonical form of a list with a first cell. -/
theorem cellsWfFrom_cons {lo a : Nat} {v : α} {m : Cells α} :
    cellsWfFrom reset len lo ((a, v) :: m) = true ↔
      lo ≤ a ∧ a < len ∧ v ≠ reset a ∧ cellsWfFrom reset len (a + 1) m = true := by
  simp only [cellsWfFrom, Bool.and_eq_true, decide_eq_true_eq, and_assoc]

/-- Below its least address a canonical list reads the reset values. -/
theorem cellsRead_of_lt {a : Nat} :
    ∀ {lo : Nat} {m : Cells α}, cellsWfFrom reset len lo m = true → a < lo → cellsRead reset m a = reset a
  | _, [], _, _ => rfl
  | lo, (b, w) :: m, h, ha => by
    obtain ⟨hlo, -, -, hm⟩ := cellsWfFrom_cons.1 h
    rw [cellsRead_cons_other w m (by omega)]
    exact cellsRead_of_lt hm (by omega)

/-- Of two canonical lists that read alike, the second has no later first address: it does not read the reset value at
the first address of the other. -/
theorem first_le_of_reads_alike {lo lo' a b : Nat} {v w : α} {m m' : Cells α}
    (h : cellsWfFrom reset len lo ((a, v) :: m) = true) (h' : cellsWfFrom reset len lo' ((b, w) :: m') = true)
    (hread : cellsRead reset ((a, v) :: m) a = cellsRead reset ((b, w) :: m') a) : b ≤ a := by
  by_contra hlt
  obtain ⟨-, -, hv, -⟩ := cellsWfFrom_cons.1 h
  obtain ⟨-, hb, hw, hm'⟩ := cellsWfFrom_cons.1 h'
  have hreset := cellsRead_of_lt (cellsWfFrom_cons.2 ⟨Nat.le_refl b, hb, hw, hm'⟩) (Nat.lt_of_not_le hlt)
  exact hv ((cellsRead_cons_same a v m).symm.trans (hread.trans hreset))

/-- Canonical lists that read alike are equal: their first cells agree, and so do the rests, which both read the reset
value at the first address. -/
theorem cellsWfFrom_ext :
    ∀ {lo : Nat} {m m' : Cells α}, cellsWfFrom reset len lo m = true → cellsWfFrom reset len lo m' = true →
      (∀ x, cellsRead reset m x = cellsRead reset m' x) → m = m'
  | _, [], [], _, _, _ => rfl
  | _, [], (b, w) :: m', _, h', hread => by
    obtain ⟨-, -, hw, -⟩ := cellsWfFrom_cons.1 h'
    exact absurd ((cellsRead_cons_same b w m').symm.trans (hread b).symm) hw
  | _, (a, v) :: m, [], h, _, hread => by
    obtain ⟨-, -, hv, -⟩ := cellsWfFrom_cons.1 h
    exact absurd ((cellsRead_cons_same a v m).symm.trans (hread a)) hv
  | _, (a, v) :: m, (b, w) :: m', h, h', hread => by
    obtain rfl : a = b :=
      Nat.le_antisymm (first_le_of_reads_alike h' h (hread b).symm) (first_le_of_reads_alike h h' (hread a))
    obtain rfl : v = w := by simpa using hread a
    obtain ⟨-, -, -, hm⟩ := cellsWfFrom_cons.1 h
    obtain ⟨-, -, -, hm'⟩ := cellsWfFrom_cons.1 h'
    have hrest : m = m' := by
      refine cellsWfFrom_ext hm hm' fun x => ?_
      by_cases hx : a = x
      · rw [cellsRead_of_lt hm (by omega), cellsRead_of_lt hm' (by omega)]
      · rw [← cellsRead_cons_other v m hx, hread x, cellsRead_cons_other v m' hx]
    rw [hrest]

end Canonical

/-- The canonical form of the register map, space by space. -/
theorem Memory.wf_iff (s : State) :
    Memory.wf s = true ↔
      cellsWf (holdingReset s.cfg) s.cfg.holdingRegCount s.hr = true ∧
        cellsWf s.cfg.inputRegInit s.cfg.inputRegCount s.ir = true ∧
        cellsWf (fun _ => false) s.cfg.coilCount s.coil = true ∧
        cellsWf (fun _ => false) s.cfg.discCount s.discIn = true := by
  simp only [Memory.wf, Bool.and_eq_true, and_assoc]

/-- Settles O60: in each space the two canonical lists read alike, and so are equal. -/
theorem canonicalMapIsUnique : Obligations.CanonicalMapIsUnique := by
  intro s t hs ht hcfg hhr hir hcoil hdisc
  obtain ⟨shr, sir, scoil, sdisc⟩ := (Memory.wf_iff s).1 hs
  obtain ⟨thr, tir, tcoil, tdisc⟩ := (Memory.wf_iff t).1 ht
  unfold State.hrGet at hhr
  unfold State.irGet at hir
  rw [hcfg] at thr tir tcoil tdisc hhr hir
  exact ⟨cellsWfFrom_ext thr shr hhr, cellsWfFrom_ext tir sir hir, cellsWfFrom_ext tcoil scoil hcoil,
    cellsWfFrom_ext tdisc sdisc hdisc⟩

end Sys2Proof.Machine

/-! Three statements about the register map. No request stops SMCORE, since its writes stay inside the holding space
(spec rules R93, R340); every step keeps the map's canonical form (R90); and a repeated request writes the same run of
words again, which finds its registers as it leaves them (R100, R392). -/

namespace Sys2Proof.Machine

open Sys2Proof

/-- Settles O52, by the kinds of step: requests and cycles write through `hrSet`, below the length of the space, and a
reset lists nothing. -/
theorem stepKeepsRegisterMapCanonical : Obligations.StepKeepsRegisterMapCanonical :=
  fun _ _ => mapCanonical_invariant.step

/-- Settles O19: a request is a run of writes inside the holding space and one response, and neither can fail. -/
theorem everyRequestCompletes : Obligations.EveryRequestCompletes := by
  intro i s
  obtain ⟨-, -, u, resp, -, -, he⟩ := exec_writes_and_transmits i s
  exact ⟨transmit resp u, he⟩

/-! ## Repeated requests -/

/-- Where a register already reads as a run of writes leaves it, the same run leaves it as it is. -/
theorem runReads_of_written {a x : Nat} {vs : List Word} {s t : State} (h : t.hrGet x = runReads a vs s x) :
    runReads a vs t x = t.hrGet x := by
  by_cases hin : a ≤ x ∧ x < a + vs.length
  · rw [h, runReads, runReads, if_pos hin, if_pos hin]
  · rw [runReads, if_neg hin]

/-- A run of writes that is repeated after a response changes neither a register nor the latch: the reset-error command
has cleared SYS_ERROR and the latch already (rules R100, R222). -/
theorem hrWriteRun_repeated {a : Nat} {vs : List Word} {resp : List Byte} {s t u : State}
    (hlen : a + vs.length ≤ s.cfg.holdingRegCount) (ht : hrWriteRun a vs s = .ok t)
    (hu : hrWriteRun a vs (transmit resp t) = .ok u) :
    u = { transmit resp t with hr := u.hr } ∧ ∀ x, u.hrGet x = t.hrGet x := by
  obtain ⟨t', ht', hframe, hreads, hcmd, -⟩ := hrWriteRun_inRange hlen
  obtain rfl : t' = t := Except.ok.inj (ht'.symm.trans ht)
  have hlen' : a + vs.length ≤ (transmit resp t').cfg.holdingRegCount := by
    rw [hframe]
    exact hlen
  obtain ⟨u', hu', hframe', hreads', hcmd', hno'⟩ := hrWriteRun_inRange hlen'
  obtain rfl : u' = u := Except.ok.inj (hu'.symm.trans hu)
  have hlatch : u'.resetRequired = t'.resetRequired := by
    by_cases hc : runGivesResetError a vs
    · rw [(hcmd' hc).2, (hcmd hc).2]
    · exact hno' hc
  refine ⟨?_, fun x => ?_⟩
  · rw [hlatch] at hframe'
    exact hframe'
  · by_cases hx : x = 0x108 ∧ runGivesResetError a vs
    · rw [hx.1, (hcmd' hx.2).1, (hcmd hx.2).1]
    · have plain : x = 0x108 → ¬ runGivesResetError a vs := fun e hc => hx ⟨e, hc⟩
      rw [hreads' x plain]
      exact runReads_of_written (hreads x plain)

/-- At every state with the parameters `p`, request i writes the words `vs` from address a on and transmits one response,
which for a write is `answer`. -/
def ExecutesAs (p : Params) (i : Instr) (a : Nat) (vs : List Word) (answer : List Byte) : Prop :=
  ∀ s : State, s.cfg = p → ∃ u resp, hrWriteRun a vs s = .ok u ∧ exec i s = .next (transmit resp u) ∧
    (i.code = 0x06 ∨ i.code = 0x10 → resp = answer)

/-- A request that only answers writes the empty run. -/
theorem ExecutesAs.of_answer {p : Params} {i : Instr} {answer : List Byte}
    (h : ∀ s : State, s.cfg = p → exec i s = .next (transmit answer s)) : ExecutesAs p i 0 [] answer :=
  fun s hs => ⟨s, answer, rfl, h s hs, fun _ => rfl⟩

/-- A read writes the empty run; what it answers depends on the registers. -/
theorem ExecutesAs.of_read {p : Params} {i : Instr} {answer : List Byte} (hcode : ¬ (i.code = 0x06 ∨ i.code = 0x10))
    (h : ∀ s : State, ∃ resp, exec i s = .next (transmit resp s)) : ExecutesAs p i 0 [] answer := by
  intro s _
  obtain ⟨resp, he⟩ := h s
  exact ⟨s, resp, rfl, he, fun hw => absurd hw hcode⟩

/-- The run of words that a request writes depends on the parameters alone, not on the rest of the state, and so does
the response to a write (rules R220, R221, R342). -/
theorem exec_executesAs (i : Instr) (p : Params) :
    ∃ a vs answer, a + vs.length ≤ p.holdingRegCount ∧ ExecutesAs p i a vs answer := by
  cases i with
  | rhr addr qty =>
    exact ⟨0, [], [], Nat.zero_le _, .of_read (by simp [Instr.code]) (readRegisters_transmits .holding 0x03 addr qty)⟩
  | rir addr qty =>
    exact ⟨0, [], [], Nat.zero_le _, .of_read (by simp [Instr.code]) (readRegisters_transmits .input 0x04 addr qty)⟩
  | wsr addr value =>
    by_cases h : addr.toNat < p.holdingRegCount
    · refine ⟨addr.toNat, [value], echoResponse p.slaveAddr 0x06 addr value, h, ?_⟩
      rintro s rfl
      refine ⟨_, _, ?_, execWsr_inRange h, fun _ => rfl⟩
      rw [hrWriteRun, hrWrite_inRange value h]
      rfl
    · refine ⟨0, [], [p.slaveAddr, 0x06 ||| 0x80, illegalDataAddress], Nat.zero_le _, .of_answer ?_⟩
      rintro s rfl
      exact if_pos (Nat.le_of_not_lt h)
  | wmr addr qty bc data =>
    by_cases h : p.holdingRegCount < addr.toNat + qty.toNat ∨ bc.toNat ≠ 2 * qty.toNat
    · refine ⟨0, [], [p.slaveAddr, 0x10 ||| 0x80, illegalDataAddress], Nat.zero_le _, .of_answer ?_⟩
      rintro s rfl
      exact execWmr_refused h
    · refine ⟨addr.toNat, dataWords data qty.toNat, echoResponse p.slaveAddr 0x10 addr qty, ?_, ?_⟩
      · rw [dataWords_length]
        omega
      · rintro s rfl
        obtain ⟨u, hu, he⟩ := execWmr_inRange (s := s) (addr := addr) (qty := qty) (bc := bc) (data := data)
          (by omega) (by omega)
        exact ⟨u, _, hu, he, fun _ => rfl⟩
  | illegal fc _ _ _ _ =>
    refine ⟨0, [], [p.slaveAddr, fc ||| 0x80, illegalFunction], Nat.zero_le _, .of_answer ?_⟩
    rintro s rfl
    rfl

/-- A response is what the transmit port has sent last (rule R178). -/
theorem transmit_sent (resp : List Byte) (s : State) :
    (transmit resp s).txLog.map TxRecord.sent = s.txLog.map TxRecord.sent ++ [withCrc resp] :=
  List.map_append

/-- A run of writes sends nothing and leaves the parameters as they are. -/
theorem hrWriteRun_port {a : Nat} {vs : List Word} {s t : State} (hlen : a + vs.length ≤ s.cfg.holdingRegCount)
    (ht : hrWriteRun a vs s = .ok t) : t.cfg = s.cfg ∧ t.txLog = s.txLog := by
  obtain ⟨t', ht', hframe, -⟩ := hrWriteRun_inRange hlen
  obtain rfl : t' = t := Except.ok.inj (ht'.symm.trans ht)
  rw [hframe]
  exact ⟨rfl, rfl⟩

/-- Settles O30: both times the request writes the same run of words, and a write gives the same response. -/
theorem writesAreIdempotent : Obligations.WritesAreIdempotent := by
  intro i s t u ht hu
  obtain ⟨a, vs, answer, hlen, hexec⟩ := exec_executesAs i s.cfg
  obtain ⟨s', resp, hrun, he, hanswer⟩ := hexec s rfl
  obtain rfl : transmit resp s' = t := Host.Outcome.next.inj (he.symm.trans ht)
  obtain ⟨hcfg, hlog⟩ := hrWriteRun_port hlen hrun
  obtain ⟨t', resp', hrun', he', hanswer'⟩ := hexec (transmit resp s') hcfg
  obtain rfl : transmit resp' t' = u := Host.Outcome.next.inj (he'.symm.trans hu)
  obtain ⟨hframe, hreads⟩ := hrWriteRun_repeated hlen hrun hrun'
  obtain ⟨-, hlog'⟩ := hrWriteRun_port (by rw [show (transmit resp s').cfg = s.cfg from hcfg]; exact hlen) hrun'
  refine ⟨?_, hreads, fun hw => ⟨withCrc answer, ?_, ?_⟩⟩
  · rw [hframe]
    rfl
  · rw [transmit_sent, hanswer hw, hlog]
  · rw [transmit_sent, hanswer' hw, hlog']

end Sys2Proof.Machine

/-! The encoding statements (spec rules R120 to R137). The CRC register is an exclusive-or with each byte followed by
eight shifts, so the two CRC bytes shift it out of itself and leave 0; and the contents of the frames of the expected
length are those of the well-formed requests, so a frame that decodes is the frame of the request that it decodes to. -/

namespace Sys2Proof

/-! ## The CRC -/

/-- A register whose bit 0 is clear is shifted without the polynomial (rule R126). -/
theorem crcShift_of_bit_clear {c : Word} (h : c.getLsbD 0 = false) : crcShift c = c >>> 1 := by
  rw [crcShift, h]
  rfl

/-- A register whose low `n` bits are clear is shifted `n` times without the polynomial (rule R126). -/
theorem crcShifts_of_low_clear :
    ∀ {n : Nat} {c : Word}, (∀ k < n, c.getLsbD k = false) → crcShifts n c = c >>> n
  | 0, _, _ => rfl
  | n + 1, c, h => by
    have hrest : ∀ k < n, (c >>> 1).getLsbD k = false := fun k hk => by
      rw [BitVec.getLsbD_ushiftRight]
      exact h (1 + k) (by omega)
    rw [crcShifts, crcShift_of_bit_clear (h 0 n.succ_pos), crcShifts_of_low_clear hrest, Nat.add_comm n 1]
    exact (BitVec.shiftRight_add c 1 n).symm

/-- A register's own low byte shifts it down to its high byte. -/
theorem crcByte_lo8 (c : Word) : crcByte c (lo8 c) = (hi8 c).setWidth 16 := by
  have hlow : ∀ k < 8, (c ^^^ (lo8 c).setWidth 16).getLsbD k = false := by
    intro k hk
    simp [lo8, hk, show k < 16 by omega]
  rw [crcByte, crcShifts_of_low_clear hlow]
  refine BitVec.eq_of_getLsbD_eq fun k _ => ?_
  by_cases h8 : k < 8
  · simp [lo8, hi8, h8, show k < 16 by omega]
  · simp [lo8, hi8, h8, BitVec.getLsbD_of_ge c (8 + k) (by omega)]

/-- A byte that is the whole register clears it. -/
theorem crcByte_self (b : Byte) : crcByte (b.setWidth 16) b = 0 := by
  rw [crcByte, BitVec.xor_self]
  rfl

/-- The CRC over a frame is 0 (rule R129). -/
theorem crc16_withCrc (s : List Byte) : crc16 (withCrc s) = 0 := by
  calc crc16 (withCrc s) = crcByte (crcByte (crc16 s) (lo8 (crc16 s))) (hi8 (crc16 s)) := List.foldl_append
    _ = crcByte ((hi8 (crc16 s)).setWidth 16) (hi8 (crc16 s)) := by rw [crcByte_lo8]
    _ = 0 := crcByte_self _

/-- A frame passes the CRC check (rule R129). -/
theorem crcOk_withCrc (s : List Byte) : crcOk (withCrc s) = true := by
  rw [withCrc, crcBytes, crcOk_append, be16_hi8_lo8]
  exact beq_self_eq_true _

/-- What passes the CRC check is the frame of some content (rules R127, R128). -/
theorem exists_content_of_crcOk {f : List Byte} (h : crcOk f = true) : ∃ s, f = withCrc s := by
  have hlen : 2 ≤ f.length := by
    unfold crcOk at h
    exact of_decide_eq_true (Bool.and_eq_true_iff.mp h).1
  obtain ⟨lo, hi, hlast⟩ : ∃ lo hi, f.drop (f.length - 2) = [lo, hi] :=
    List.length_eq_two.mp (by rw [List.length_drop]; omega)
  obtain ⟨s, rfl⟩ : ∃ s, f = s ++ [lo, hi] := ⟨_, by rw [← hlast, List.take_append_drop]⟩
  rw [crcOk_append, beq_iff_eq] at h
  exact ⟨s, by rw [withCrc, crcBytes, h, lo8_be16, hi8_be16]⟩

/-! ## The expected length -/

/-- The expected length of a 0x10 frame whose byte count has not arrived (rule R132). -/
theorem expectedLen_wmr_unknown {f : List Byte} (h2 : 2 ≤ f.length) (h7 : f.length < 7) (hc : byteAt f 1 = 0x10) :
    expectedLen f = none := by
  rw [expectedLen, if_neg (by omega), if_pos hc, if_pos h7]

/-- The receiver expects of a request's frame the length that it has (rule R132). -/
theorem expectedLen_encode (slave : Byte) {i : Instr} (h : i.wf = true) :
    expectedLen (encode slave i) = some (encode slave i).length := by
  rw [encode_length slave h]
  cases i with
  | rhr addr qty => exact Laws.FrameLength.rhr addr qty h slave
  | rir addr qty => exact Laws.FrameLength.rir addr qty h slave
  | wsr addr value => exact Laws.FrameLength.wsr addr value h slave
  | wmr addr qty bc data => exact Laws.FrameLength.wmr addr qty bc data h slave
  | illegal fc b2 b3 b4 b5 => exact Laws.FrameLength.illegal fc b2 b3 b4 b5 h slave

/-! ## Requests and their contents -/

@[simp] theorem wordBytes_be16 (h l : Byte) : wordBytes (be16 h l) = [h, l] := by simp [wordBytes]

/-- An illegal code is none of the supported ones (rule R133). -/
theorem wf_illegal_iff {fc b2 b3 b4 b5 : Byte} :
    (Instr.illegal fc b2 b3 b4 b5).wf = true ↔ fc ≠ 0x03 ∧ fc ≠ 0x04 ∧ fc ≠ 0x06 ∧ fc ≠ 0x10 := by
  simp [Instr.wf, supportedCode, and_assoc]

/-- The fields of a frame that begins with a request's code and bytes are the request (rules R121, R133). -/
theorem decodeFields_payload (slave : Byte) {i : Instr} (h : i.wf = true) (rest : List Byte) :
    decodeFields (slave :: i.code :: (i.payload ++ rest)) = i := by
  cases i with
  | rhr | rir | wsr => simp [decodeFields, Instr.code, Instr.payload, wordBytes, wordAt]
  | wmr addr qty bc data =>
    have hdata : data.length = bc.toNat := by simpa [Instr.wf] using h
    simp [decodeFields, Instr.code, Instr.payload, wordBytes, wordAt, ← hdata]
  | illegal fc b2 b3 b4 b5 =>
    obtain ⟨h3, h4, h6, h10⟩ := wf_illegal_iff.mp h
    exact (if_neg h3).trans ((if_neg h4).trans ((if_neg h6).trans (if_neg h10)))

/-- The frame of a well-formed request decodes to the request (rules R121 to R123, R133). -/
theorem decode_encode (slave : Byte) {i : Instr} (h : i.wf = true) : decode slave (encode slave i) = .ok i :=
  decode_eq_ok_iff.mpr
    ⟨expectedLen_encode slave h, rfl, crcOk_withCrc _, decodeFields_payload slave h _⟩

/-- Bytes that are the frame of a well-formed request decode to the request. -/
theorem decode_of_encode_eq {slave : Byte} {f : List Byte} {i : Instr} (h : i.wf = true) (hf : encode slave i = f) :
    decode slave f = .ok i :=
  hf ▸ decode_encode slave h

/-- Every code but 0x10 with any four bytes is a well-formed request of format REQ8 (rules R122, R133). -/
theorem exists_request_eight {fc : Byte} (hc : fc ≠ 0x10) (b2 b3 b4 b5 : Byte) :
    ∃ i : Instr, i.wf = true ∧ i.code = fc ∧ i.payload = [b2, b3, b4, b5] := by
  by_cases h3 : fc = 0x03
  · exact ⟨.rhr (be16 b2 b3) (be16 b4 b5), rfl, h3.symm, by simp [Instr.payload]⟩
  by_cases h4 : fc = 0x04
  · exact ⟨.rir (be16 b2 b3) (be16 b4 b5), rfl, h4.symm, by simp [Instr.payload]⟩
  by_cases h6 : fc = 0x06
  · exact ⟨.wsr (be16 b2 b3) (be16 b4 b5), rfl, h6.symm, by simp [Instr.payload]⟩
  exact ⟨.illegal fc b2 b3 b4 b5, wf_illegal_iff.mpr ⟨h3, h4, h6, hc⟩, rfl, rfl⟩

/-- A 0x10 frame's bytes 2 to 5, its byte count and that many data bytes are a well-formed request of format REQ10
(rule R123). -/
theorem exists_request_wmr (b2 b3 b4 b5 : Byte) {bc : Byte} {data : List Byte} (h : data.length = bc.toNat) :
    ∃ i : Instr, i.wf = true ∧ i.code = 0x10 ∧ i.payload = b2 :: b3 :: b4 :: b5 :: bc :: data :=
  ⟨.wmr (be16 b2 b3) (be16 b4 b5) bc data, by simp [Instr.wf, h], rfl, by simp [Instr.payload]⟩

/-- A frame of its expected length is the frame of a well-formed request to its byte 0 (rules R122, R123, R132). -/
theorem exists_request_of_expectedLen {s : List Byte} (h : expectedLen (withCrc s) = some (withCrc s).length) :
    ∃ i : Instr, i.wf = true ∧ withCrc s = encode (byteAt (withCrc s) 0) i := by
  have hlen := withCrc_length s
  have h8 : 8 ≤ (withCrc s).length := Machine.eight_le_expectedLen h
  by_cases hc : byteAt (withCrc s) 1 = 0x10
  · have hn := Option.some.inj ((expectedLen_wmr (by omega) hc).symm.trans h)
    match s, (show s.length = (s.length - 7) + 7 by omega) with
    | slave :: fc :: b2 :: b3 :: b4 :: b5 :: bc :: data, _ =>
      obtain rfl : fc = 0x10 := hc
      have hdata : data.length = bc.toNat := by
        have hbc : byteAt (withCrc (slave :: 0x10 :: b2 :: b3 :: b4 :: b5 :: bc :: data)) 6 = bc := rfl
        simp only [hbc, withCrc_length, List.length_cons] at hn
        omega
      obtain ⟨i, hwf, hcode, hpayload⟩ := exists_request_wmr b2 b3 b4 b5 hdata
      exact ⟨i, hwf, by rw [encode, hcode, hpayload]; rfl⟩
  · have hn := Option.some.inj ((expectedLen_eight (by omega) hc).symm.trans h)
    match s, (show s.length = 6 by omega) with
    | [slave, fc, b2, b3, b4, b5], _ =>
      obtain ⟨i, hwf, hcode, hpayload⟩ := exists_request_eight (fc := fc) hc b2 b3 b4 b5
      exact ⟨i, hwf, by rw [encode, hcode, hpayload]; rfl⟩

/-! ## The statements -/

/-- Settles O2: the frame has its expected length, the slave's address and its CRC, and its fields are the request's. -/
theorem decodeOfEncode : Obligations.DecodeOfEncode :=
  fun slave _ h => decode_encode slave h

/-- Settles O3: the bytes are the frame of some well-formed request, which by O2 is the one they decode to. -/
theorem encodeOfDecode : Obligations.EncodeOfDecode := by
  intro slave f i h
  obtain ⟨hlen, hslave, hcrc, -⟩ := decode_eq_ok_iff.mp h
  obtain ⟨s, rfl⟩ := exists_content_of_crcOk hcrc
  obtain ⟨j, hwf, hj⟩ := exists_request_of_expectedLen hlen
  rw [hslave] at hj
  obtain rfl : i = j := Except.ok.inj (h.symm.trans (decode_of_encode_eq hwf hj.symm))
  exact ⟨hwf, hj.symm⟩

/-- Settles O4: the CRC bytes shift the register out of itself, low byte first. -/
theorem crcSelfConsistent : Obligations.CrcSelfConsistent := by
  have hcrc : crc16 [0x01, 0x03, 0x00, 0x00, 0x00, 0x0A] = 0xCDC5 := by decide +kernel
  refine ⟨fun s => ⟨crcOk_withCrc s, crc16_withCrc s⟩, hcrc, ?_⟩
  rw [withCrc, crcBytes, hcrc]
  decide

/-- Settles O1: each frame is that of its request, and so decodes to it. -/
theorem specFramesDecode : Obligations.SpecFramesDecode :=
  ⟨decode_of_encode_eq rfl (by decide +kernel), decode_of_encode_eq rfl (by decide +kernel),
    decode_of_encode_eq rfl (by decide +kernel), decode_of_encode_eq rfl (by decide +kernel),
    decode_of_encode_eq rfl (by decide +kernel)⟩

/-- Settles O5: the last two bytes, low byte first, are one word. -/
theorem crcCheckIsExact : Obligations.CrcCheckIsExact := by
  intro s lo hi
  rw [crcOk_append, beq_iff_eq, ← BitVec.toNat_inj, be16_toNat]
  omega

/-- Settles O6, by the branches of rule R132. -/
theorem expectedLengthOfPartialFrame : Obligations.ExpectedLengthOfPartialFrame := by
  refine ⟨fun buf h => if_pos h, fun b0 fc rest hc => expectedLen_eight (by simp) hc, fun b0 rest h => ?_,
    fun b0 b2 b3 b4 b5 bc rest => expectedLen_wmr (by simp) rfl⟩
  have hlen : (b0 :: 0x10 :: rest).length = rest.length + 2 := rfl
  exact expectedLen_wmr_unknown (by omega) (by omega) rfl

end Sys2Proof

/-! The frame receiver and the protocol engine (spec rules R160 to R179). A byte is kept, completes the frame, or finds
the buffer full; the proper beginnings of a request's frame are incomplete, so a run over its bytes accumulates them up
to the last one, or up to a full buffer. What a request does is decided by the parameters and the register map alone, so
that neither the monitor's state nor the transmit outcomes matter to it. -/

namespace Sys2Proof.Machine

open Sys2Proof

/-! ## One event -/

/-- A step is its event, met with that event taken (rule R13). -/
theorem step_of_event {s : State} {e : Event} {es : List Event} (h : s.inputs = e :: es) :
    step s = onEvent e (s.setInputs es) := by
  rw [step, stepEvent, h]

section Byte

variable {s : State} {b : Byte} {es : List Event}

/-- A byte that finds the buffer full is lost with the partial frame (rule R161). -/
theorem step_byte_overflows (hi : s.inputs = .rxByte b :: es) (hfull : s.cfg.frameBufSize ≤ s.rxBuf.length) :
    step s = .next ((s.setInputs es).setRxBuf []) :=
  (step_of_event hi).trans (if_neg (Nat.not_lt.mpr hfull))

/-- A byte that does not complete the frame is appended (rule R162). -/
theorem step_byte_kept (hi : s.inputs = .rxByte b :: es) (hroom : s.rxBuf.length < s.cfg.frameBufSize)
    (hne : expectedLen (s.rxBuf ++ [b]) ≠ some (s.rxBuf.length + 1)) :
    step s = .next ((s.setInputs es).setRxBuf (s.rxBuf ++ [b])) :=
  (step_of_event hi).trans ((if_pos hroom).trans (if_neg hne))

/-- A byte that completes the frame has it processed, with the receiver idle (rule R162). -/
theorem step_byte_completes (hi : s.inputs = .rxByte b :: es) (hroom : s.rxBuf.length < s.cfg.frameBufSize)
    (heq : expectedLen (s.rxBuf ++ [b]) = some (s.rxBuf.length + 1)) :
    step s = processFrame (s.rxBuf ++ [b]) ((s.setInputs es).setRxBuf []) :=
  (step_of_event hi).trans ((if_pos hroom).trans (if_pos heq))

end Byte

/-- A frame that the decoder accepts runs its request (rule R173). -/
theorem processFrame_accepted {f : List Byte} {s : State} {i : Instr} (h : decode s.cfg.slaveAddr f = .ok i) :
    processFrame f s = exec i s := by
  rw [processFrame, h]

/-- A frame that the decoder rejects does nothing (rules R171, R172). -/
theorem processFrame_rejected {f : List Byte} {s : State} (h : ∀ i, decode s.cfg.slaveAddr f ≠ .ok i) :
    processFrame f s = .next s := by
  unfold processFrame
  cases hd : decode s.cfg.slaveAddr f with
  | ok i => exact absurd hd (h i)
  | error _ => rfl

/-- A frame with another byte 0 is rejected (rule R171). -/
theorem decode_ne_ok_of_otherSlave {slave : Byte} {f : List Byte} (hf : f ≠ []) (h : f.head? ≠ some slave) (i : Instr) :
    decode slave f ≠ .ok i := by
  intro hd
  obtain ⟨-, hslave, -⟩ := decode_eq_ok_iff.mp hd
  cases f with
  | nil => exact hf rfl
  | cons b f => exact h (congrArg some hslave)

/-- A frame whose last two bytes are not the CRC of the others is rejected (rule R172). -/
theorem decode_ne_ok_of_badCrc {slave lo hi : Byte} {c : List Byte} (h : (crc16 c).toNat ≠ lo.toNat + 256 * hi.toNat)
    (i : Instr) : decode slave (c ++ [lo, hi]) ≠ .ok i := by
  intro hd
  obtain ⟨-, -, hcrc, -⟩ := decode_eq_ok_iff.mp hd
  exact h ((crcCheckIsExact c lo hi).mp hcrc)

/-- SLAVE_ADDR is never the broadcast address (rule R10). -/
theorem slaveAddr_ne_zero (p : Params) : p.slaveAddr ≠ 0 := by
  intro h
  have hmod : (p.slaveAddrPred.val + 1) % 2 ^ 8 = 0 := congrArg BitVec.toNat h
  have := p.slaveAddrPred.isLt
  omega

/-- Settles O7: a full buffer has no room for the byte. -/
theorem fullBufferIsDiscarded : Obligations.FullBufferIsDiscarded :=
  fun _ _ _ hi hfull => step_byte_overflows hi hfull.ge

/-- Settles O8, by whether the byte completes the frame. -/
theorem byteIsAccumulated : Obligations.ByteIsAccumulated :=
  fun _ _ _ hi hroom => ⟨step_byte_kept hi hroom, step_byte_completes hi hroom⟩

/-- Settles O9: the event only empties the receiver. -/
theorem transportErrorClearsReceiver : Obligations.TransportErrorClearsReceiver :=
  fun _ _ hi => step_of_event hi

/-- Settles O10, by whether the silence timer exists. -/
theorem lineSilence : Obligations.LineSilence := by
  intro s es hi
  refine ⟨fun hs => ?_, fun hs => ?_⟩
  · have hstep : step s = .next { s with rxBuf := [], inputs := es } := (step_of_event hi).trans (if_pos hs)
    exact ⟨hstep, hstep.trans (transportErrorClearsReceiver { s with inputs := .rxError :: es } es rfl).symm⟩
  · exact (step_of_event hi).trans (if_neg (by rw [State.setInputs_cfg, hs]; decide))

/-- Settles O11: bytes that decode are a complete frame, that of a well-formed request. -/
theorem stepRunsDecodedRequest : Obligations.StepRunsDecodedRequest := by
  intro s b es i hi hroom hd
  obtain ⟨hlen, -⟩ := decode_eq_ok_iff.mp hd
  rw [List.length_append] at hlen
  exact ⟨(encodeOfDecode _ _ _ hd).1, (step_byte_completes hi hroom hlen).trans (processFrame_accepted hd)⟩

/-- Settles O14: the decoder's first check fails. -/
theorem otherSlaveIsDropped : Obligations.OtherSlaveIsDropped := by
  refine ⟨fun s b es hi hroom hlen hhead => ?_, slaveAddr_ne_zero⟩
  exact (step_byte_completes hi hroom hlen).trans
    (processFrame_rejected (decode_ne_ok_of_otherSlave (by simp) hhead))

/-- Settles O15: the decoder's second check fails. -/
theorem badCrcIsDropped : Obligations.BadCrcIsDropped := by
  intro s b es c lo hi hroom hlen hbuf hcrc
  have hframe : s.rxBuf ++ [b] = c ++ [lo, b] := by rw [hbuf, List.append_assoc]; rfl
  refine (step_byte_completes hi hroom hlen).trans (processFrame_rejected ?_)
  rw [hframe]
  exact decode_ne_ok_of_badCrc hcrc

/-! ## Runs over the bytes of a frame -/

/-- In any core, a run goes on from where a run of its first steps has led. -/
theorem run_add_core {M : Host.Core} (n : Nat) :
    ∀ {m : Nat} {s u : M.State}, M.run m s = .next u → M.run (m + n) s = M.run n u
  | 0, _, _, h => by
    cases h
    rw [Nat.zero_add]
  | m + 1, s, _, h => by
    obtain ⟨v, hv, hrun⟩ := run_succ_core h
    rw [Nat.add_right_comm, Host.Core.run, hv]
    exact run_add_core n hrun

/-- A run goes on from where a run of its first steps has led. -/
theorem run_add {m : Nat} (n : Nat) {s u : State} (h : Host.Core.run Sys2Proof.core m s = .next u) :
    Host.Core.run Sys2Proof.core (m + n) s = Host.Core.run Sys2Proof.core n u :=
  run_add_core n h

/-- In any core, a run of one step is that step. -/
theorem run_one_core {M : Host.Core} (s : M.State) : M.run 1 s = M.step s := by
  unfold Host.Core.run
  cases M.step s <;> rfl

/-- A run of one step is that step. -/
theorem run_one (s : State) : Host.Core.run Sys2Proof.core 1 s = step s :=
  run_one_core (M := Sys2Proof.core) s

/-- The bytes are fewer than the frame's length, or do not tell it yet: what `State.receiverPartial` says of the
receiver (rule R132). -/
def Incomplete (f : List Byte) : Prop := ∀ n, expectedLen f = some n → f.length < n

/-- What begins an incomplete frame is incomplete: further bytes do not change a length that is known (rule R132). -/
theorem Incomplete.of_append {f g : List Byte} (h : Incomplete (f ++ g)) : Incomplete f := by
  intro n hn
  have := h n (expectedLen_append hn g)
  rw [List.length_append] at this
  omega

/-- An incomplete frame has not its expected length (rule R162). -/
theorem Incomplete.ne {f : List Byte} (h : Incomplete f) : expectedLen f ≠ some f.length :=
  fun heq => Nat.lt_irrefl _ (h _ heq)

/-- A proper beginning of a request's frame is incomplete (rules R132, R162). -/
theorem Incomplete.of_encode {slave : Byte} {i : Instr} {f g : List Byte} (hwf : i.wf = true)
    (hframe : encode slave i = f ++ g) (hg : g ≠ []) : Incomplete f := by
  intro n hn
  have hlen := expectedLen_encode slave hwf
  rw [hframe, expectedLen_append hn g, List.length_append, Option.some.injEq] at hlen
  have := List.length_pos_iff.mpr hg
  omega

/-- At most seven bytes are incomplete: every format has eight or more (rules R122, R132). -/
theorem Incomplete.of_short {f : List Byte} (h : f.length ≤ 7) : Incomplete f := by
  intro n hn
  have := eight_le_expectedLen hn
  omega

/-- Bytes that leave the frame incomplete and fit the buffer are accumulated, one by one (rule R162). -/
theorem run_accumulates :
    ∀ {bs : List Byte} {s : State} {es : List Event}, s.inputs = bs.map Event.rxByte ++ es →
      (s.rxBuf ++ bs).length ≤ s.cfg.frameBufSize → Incomplete (s.rxBuf ++ bs) →
        Host.Core.run Sys2Proof.core bs.length s = .next ((s.setInputs es).setRxBuf (s.rxBuf ++ bs))
  | [], s, es, hi, _, _ => by
    rw [List.append_nil, show es = s.inputs from hi.symm]
    rfl
  | b :: bs, s, es, hi, hsize, hinc => by
    rw [List.append_cons] at hsize hinc ⊢
    have hroom : s.rxBuf.length < s.cfg.frameBufSize := by
      simp only [List.length_append, List.length_singleton] at hsize
      omega
    have hne : expectedLen (s.rxBuf ++ [b]) ≠ some (s.rxBuf.length + 1) := by
      simpa only [List.length_append, List.length_singleton] using hinc.of_append.ne
    have hstep := (run_one s).trans (step_byte_kept hi hroom hne)
    rw [List.length_cons, Nat.add_comm, run_add bs.length hstep]
    exact run_accumulates rfl hsize hinc

/-- An idle receiver accumulates the bytes from the first one on (rules R160, R162). -/
theorem run_accumulates_idle {f : List Byte} {s : State} {es : List Event} (hidle : s.rxBuf = [])
    (hi : s.inputs = f.map Event.rxByte ++ es) (hsize : f.length ≤ s.cfg.frameBufSize) (hinc : Incomplete f) :
    Host.Core.run Sys2Proof.core f.length s = .next ((s.setInputs es).setRxBuf f) := by
  have hrun := run_accumulates hi
  rw [hidle, List.nil_append] at hrun
  exact hrun hsize hinc

theorem setRxBuf_of_idle {s : State} (h : s.rxBuf = []) : s.setRxBuf [] = s := by
  rw [← h]
  rfl

/-- Settles O12: all but the last byte are accumulated, and the last one completes the frame, which decodes to the
request. -/
theorem deliveredRequestIsExecuted : Obligations.DeliveredRequestIsExecuted := by
  intro s i es hwf hfits hidle hi
  obtain ⟨f, b, hframe⟩ : ∃ f b, encode s.cfg.slaveAddr i = f ++ [b] :=
    ⟨_, _, (List.dropLast_append_getLast (List.cons_ne_nil _ _)).symm⟩
  have hlen : f.length + 1 = i.frameLen := by
    rw [← encode_length s.cfg.slaveAddr hwf, hframe, List.length_append, List.length_singleton]
  have hroom : f.length < s.cfg.frameBufSize := by
    have : i.frameLen ≤ s.cfg.frameBufSize := of_decide_eq_true hfits
    omega
  have hd : decode s.cfg.slaveAddr (f ++ [b]) = .ok i := hframe ▸ decode_encode s.cfg.slaveAddr hwf
  rw [hframe, List.map_append, List.append_assoc] at hi
  have hrun := run_accumulates_idle hidle hi hroom.le (.of_encode hwf hframe (List.cons_ne_nil _ _))
  obtain ⟨-, hstep⟩ := stepRunsDecodedRequest ((s.setInputs (.rxByte b :: es)).setRxBuf f) b es i rfl hroom hd
  rw [← hlen, run_add 1 hrun, run_one]
  exact hstep.trans (congrArg (exec i) (setRxBuf_of_idle (s := s.setInputs es) hidle))

/-- The bytes of a longer request fill the buffer, and the next one overflows it (rules R161, R163). -/
theorem run_overflows {s : State} {i : Instr} {es : List Event} (hwf : i.wf = true) (hfits : i.fits s.cfg = false)
    (hidle : s.rxBuf = [])
    (hi : s.inputs = ((encode s.cfg.slaveAddr i).take (s.cfg.frameBufSize + 1)).map Event.rxByte ++ es) :
    Host.Core.run Sys2Proof.core (s.cfg.frameBufSize + 1) s = .next { s with inputs := es } := by
  obtain ⟨f, hf⟩ : ∃ f, encode s.cfg.slaveAddr i = f := ⟨_, rfl⟩
  have hsize : s.cfg.frameBufSize < f.length := by
    rw [← hf, encode_length s.cfg.slaveAddr hwf]
    exact Nat.lt_of_not_le (of_decide_eq_false hfits)
  have hfull : (f.take s.cfg.frameBufSize).length = s.cfg.frameBufSize := by
    rw [List.length_take]
    omega
  have hinc : Incomplete (f.take s.cfg.frameBufSize) := by
    refine .of_encode (g := f.drop s.cfg.frameBufSize) hwf (hf.trans (List.take_append_drop _ f).symm) ?_
    exact List.drop_eq_nil_iff.not.mpr (Nat.not_le.mpr hsize)
  rw [hf, List.take_succ_eq_append_getElem hsize, List.map_append, List.append_assoc] at hi
  have hrun := run_accumulates_idle hidle hi hfull.le hinc
  rw [hfull] at hrun
  rw [run_add 1 hrun, run_one, step_byte_overflows rfl hfull.ge]
  exact congrArg Host.Outcome.next (setRxBuf_of_idle (s := s.setInputs es) hidle)

/-- Settles O13: the buffer overflows, and the few bytes left are accumulated from an idle receiver. -/
theorem oversizedRequestOverflows : Obligations.OversizedRequestOverflows := by
  refine ⟨fun s i es => run_overflows, fun s i es hwf hfits hleft hidle hi => ?_, fun p addr qty bc data hp => ?_⟩
  · have hlen := encode_length s.cfg.slaveAddr hwf
    have hsize : s.cfg.frameBufSize < i.frameLen := Nat.lt_of_not_le (of_decide_eq_false hfits)
    obtain ⟨rest, hrest⟩ : ∃ rest, (encode s.cfg.slaveAddr i).drop (s.cfg.frameBufSize + 1) = rest := ⟨_, rfl⟩
    have hcount : (s.cfg.frameBufSize + 1) + rest.length = i.frameLen := by
      rw [← hrest, List.length_drop]
      omega
    have hroom : rest.length ≤ s.cfg.frameBufSize := by
      unfold Params.frameBufSize at hcount hleft ⊢
      omega
    rw [← List.take_append_drop (s.cfg.frameBufSize + 1) (encode s.cfg.slaveAddr i), hrest, List.map_append,
      List.append_assoc] at hi
    rw [hrest, ← hcount, run_add rest.length (run_overflows hwf hfits hidle hi)]
    exact run_accumulates_idle (s := s.setInputs (rest.map Event.rxByte ++ es)) hidle rfl hroom (.of_short (by omega))
  · have := bc.isLt
    simp only [Instr.fits, Instr.frameLen, hp, decide_eq_false_iff_not]
    omega

/-! ## What a request depends on -/

/-- The two states have the same parameters, holding registers and input registers: all that a request reads. -/
structure SameMap (s s' : State) : Prop where
  cfg : s'.cfg = s.cfg
  hr : s'.hr = s.hr
  ir : s'.ir = s.ir

theorem SameMap.refl (s : State) : SameMap s s := ⟨rfl, rfl, rfl⟩

theorem SameMap.spaceLen {s s' : State} (h : SameMap s s') (sp : Space) : s'.spaceLen sp = s.spaceLen sp := by
  cases sp <;> simp only [State.spaceLen, h.cfg]

theorem SameMap.spaceGet {s s' : State} (h : SameMap s s') (sp : Space) (a : Nat) :
    s'.spaceGet sp a = s.spaceGet sp a := by
  cases sp <;> simp only [State.spaceGet, State.hrGet, State.irGet, h.cfg, h.hr, h.ir]

/-- The holding registers list `m`, and the latch is cleared when `clears` says so: what a run of writes leaves. -/
def State.written (s : State) (m : Cells Word) (clears : Bool) : State :=
  (s.setHr m).setLatch (!clears && s.resetRequired)

theorem State.written_written (s : State) (m m' : Cells Word) (c c' : Bool) :
    (s.written m c).written m' c' = s.written m' (c' || c) := by
  cases c' <;> rfl

/-- What one write does is decided by the parameters and the holding registers (rule R222). -/
theorem write_decided (a : Nat) (v : Word) (p : Params) (m : Cells Word) :
    ∃ m' clears, ∀ s : State, s.cfg = p → s.hr = m →
      resetErrorEffect a v (s.hrSet a v) = s.written m' clears := by
  by_cases hc : a = resetErrorCmd ∧ v = 1
  · refine ⟨cellsWrite (holdingReset p) (cellsWrite (holdingReset p) m a v) sysError 0, true, ?_⟩
    rintro s rfl rfl
    exact if_pos hc
  · refine ⟨cellsWrite (holdingReset p) m a v, false, ?_⟩
    rintro s rfl rfl
    exact if_neg hc

/-- What a run of writes does is decided by the parameters and the holding registers (rules R221 to R223). -/
theorem hrWriteRun_decided {p : Params} :
    ∀ {vs : List Word} {a : Nat} (m : Cells Word), a + vs.length ≤ p.holdingRegCount →
      ∃ m' clears, ∀ s : State, s.cfg = p → s.hr = m → hrWriteRun a vs s = .ok (s.written m' clears)
  | [], a, m, _ => ⟨m, false, by rintro s - rfl; rfl⟩
  | v :: vs, a, m, hlen => by
    rw [List.length_cons] at hlen
    obtain ⟨m₁, c₁, hfirst⟩ := write_decided a v p m
    obtain ⟨m₂, c₂, hrest⟩ := hrWriteRun_decided (p := p) (vs := vs) (a := a + 1) m₁ (by omega)
    refine ⟨m₂, c₂ || c₁, fun s hcfg hm => ?_⟩
    rw [hrWriteRun, hrWrite_inRange v (by rw [hcfg]; omega), hfirst s hcfg hm, ← State.written_written]
    exact hrest _ hcfg rfl

/-- What a read answers is decided by the parameters and the register map (rules R200, R201). -/
theorem readRegisters_decided (sp : Space) (fc : Byte) (addr qty : Word) (s : State) :
    ∃ body, ∀ s', SameMap s s' →
      readRegisters sp fc addr qty s' = .next (transmit (s.cfg.slaveAddr :: body) s') := by
  by_cases h : s.spaceLen sp < addr.toNat + qty.toNat ∨ s.cfg.maxReadQty < qty.toNat
  · refine ⟨[fc ||| 0x80, illegalDataAddress], fun s' hs => ?_⟩
    rw [readRegisters_refused (by rwa [hs.spaceLen, hs.cfg]), raiseException, hs.cfg]
  · obtain ⟨hr, hq⟩ := not_or.mp h
    refine ⟨(readResponse s.cfg.slaveAddr fc
      ((List.range qty.toNat).map fun k => s.spaceGet sp (addr.toNat + k))).tail, fun s' hs => ?_⟩
    rw [readRegisters_inRange (by rw [hs.spaceLen]; omega) (by rw [hs.cfg]; omega), hs.cfg]
    simp only [hs.spaceGet]
    rfl

/-- At every state with the map of `s`, request i leaves the holding registers as `m`, clears the latch when `clears`
says so, and transmits one response: SLAVE_ADDR, `body` and their CRC. -/
def DecidedAs (i : Instr) (s : State) (m : Cells Word) (clears : Bool) (body : List Byte) : Prop :=
  ∀ s', SameMap s s' → exec i s' = .next (transmit (s.cfg.slaveAddr :: body) (s'.written m clears))

/-- A request that only answers leaves the registers and the latch. -/
theorem DecidedAs.of_answer {i : Instr} {s : State} {body : List Byte}
    (h : ∀ s', SameMap s s' → exec i s' = .next (transmit (s.cfg.slaveAddr :: body) s')) :
    DecidedAs i s s.hr false body := by
  intro s' hs
  rw [h s' hs, ← hs.hr]
  rfl

/-- What a request does is decided by the parameters and the register map (rules R174, R177). -/
theorem exec_decided (i : Instr) (s : State) : ∃ m clears body, DecidedAs i s m clears body := by
  cases i with
  | rhr addr qty =>
    obtain ⟨body, hread⟩ := readRegisters_decided .holding 0x03 addr qty s
    exact ⟨_, _, body, .of_answer hread⟩
  | rir addr qty =>
    obtain ⟨body, hread⟩ := readRegisters_decided .input 0x04 addr qty s
    exact ⟨_, _, body, .of_answer hread⟩
  | wsr addr value =>
    by_cases hr : addr.toNat < s.cfg.holdingRegCount
    · obtain ⟨m, clears, hwrite⟩ := write_decided addr.toNat value s.cfg s.hr
      refine ⟨m, clears, (echoResponse s.cfg.slaveAddr 0x06 addr value).tail, fun s' hs => ?_⟩
      rw [exec, execWsr_inRange (by rwa [hs.cfg]), hwrite s' hs.cfg hs.hr, hs.cfg]
      rfl
    · refine ⟨_, _, [0x06 ||| 0x80, illegalDataAddress], .of_answer fun s' hs => ?_⟩
      rw [← hs.cfg] at hr ⊢
      exact if_pos (Nat.le_of_not_lt hr)
  | wmr addr qty bc data =>
    by_cases hr : s.cfg.holdingRegCount < addr.toNat + qty.toNat ∨ bc.toNat ≠ 2 * qty.toNat
    · refine ⟨_, _, [0x10 ||| 0x80, illegalDataAddress], .of_answer fun s' hs => ?_⟩
      rw [← hs.cfg] at hr ⊢
      exact execWmr_refused hr
    · obtain ⟨m, clears, hwrite⟩ := hrWriteRun_decided (p := s.cfg) (vs := dataWords data qty.toNat) (a := addr.toNat)
        s.hr (by rw [dataWords_length]; omega)
      refine ⟨m, clears, (echoResponse s.cfg.slaveAddr 0x10 addr qty).tail, fun s' hs => ?_⟩
      obtain ⟨u, hu, he⟩ := execWmr_inRange (s := s') (addr := addr) (qty := qty) (bc := bc) (data := data)
        (by rw [hs.cfg]; omega) (by omega)
      obtain rfl : s'.written m clears = u := Except.ok.inj ((hwrite s' hs.cfg hs.hr).symm.trans hu)
      rw [exec, he, hs.cfg]
      rfl
  | illegal fc _ _ _ _ =>
    refine ⟨_, _, [fc ||| 0x80, illegalFunction], .of_answer fun s' hs => ?_⟩
    rw [← hs.cfg]
    rfl

/-- A request transmits one response, which begins with SLAVE_ADDR (rules R174, R175). -/
theorem exec_responds (i : Instr) (s : State) :
    ∃ t body, exec i s = .next t ∧ Responds (s.cfg.slaveAddr :: body) s t := by
  obtain ⟨m, clears, body, h⟩ := exec_decided i s
  exact ⟨_, body, h s (.refl s), rfl, rfl⟩

/-- A step that completes no accepted frame transmits nothing (rules R171, R172, R175). -/
theorem step_sends_nothing {s t : State} (h : step s = .next t)
    (hno : ∀ b es i, s.inputs = .rxByte b :: es → s.rxBuf.length < s.cfg.frameBufSize →
      decode s.cfg.slaveAddr (s.rxBuf ++ [b]) ≠ .ok i) : t.txLog = s.txLog ∧ t.txCount = s.txCount := by
  obtain ⟨-, rfl⟩ | ⟨b, es, hi, hb⟩ | ⟨es, -, rfl⟩ | ⟨es, -, -, rfl⟩ | ⟨a, d, es, -, ht⟩ | ⟨es, -, rfl⟩ |
    ⟨es, -, rfl⟩ := step_cases h
  · exact ⟨rfl, rfl⟩
  · obtain ⟨-, -, rfl⟩ | ⟨-, rfl⟩ | ⟨hroom, -, ⟨i, hd, -⟩ | ⟨e, -, rfl⟩⟩ := onRxByte_cases hb
    · exact ⟨rfl, rfl⟩
    · exact ⟨rfl, rfl⟩
    · exact absurd hd (hno b es i hi hroom)
    · exact ⟨rfl, rfl⟩
  · exact ⟨rfl, rfl⟩
  · exact ⟨rfl, rfl⟩
  · obtain ⟨-, hframe, -⟩ := runCycle_spec rfl ht.symm
    rw [hframe]
    exact ⟨rfl, rfl⟩
  · exact ⟨rfl, rfl⟩
  · exact ⟨rfl, rfl⟩

/-- Settles O16: only a request transmits, and it does so once. -/
theorem exactlyOneResponse : Obligations.ExactlyOneResponse := by
  refine ⟨fun i s t h => ?_, fun s b es i hi hroom hd => ?_, fun s t => step_sends_nothing⟩
  · obtain ⟨t', body, he, hresp⟩ := exec_responds i s
    obtain rfl : t' = t := Host.Outcome.next.inj (he.symm.trans h)
    exact ⟨body, hresp⟩
  · obtain ⟨t, body, he, hresp⟩ := exec_responds i { s with rxBuf := [], inputs := es }
    exact ⟨t, body, (stepRunsDecodedRequest s b es i hi hroom hd).2.trans he, hresp⟩

/-- Settles O21: other monitor state leaves the parameters and the register map as they are. -/
theorem requestIgnoresMonitorState : Obligations.RequestIgnoresMonitorState := by
  intro i s t h
  obtain ⟨m, clears, body, hexec⟩ := exec_decided i s
  obtain rfl := Host.Outcome.next.inj ((hexec s (.refl s)).symm.trans h)
  exact ⟨rfl, fun ai di st estop relay ind check warn crit emerg => hexec _ ⟨rfl, rfl, rfl⟩⟩

/-- Settles O22: another count of draws leaves the parameters and the register map as they are. -/
theorem transmitOutcomeChangesNothing : Obligations.TransmitOutcomeChangesNothing := by
  intro i s t n h
  obtain ⟨m, clears, body, hexec⟩ := exec_decided i s
  obtain rfl := Host.Outcome.next.inj ((hexec s (.refl s)).symm.trans h)
  exact ⟨_, hexec _ ⟨rfl, rfl, rfl⟩, rfl,
    (transmit_sent _ _).trans (transmit_sent (s.cfg.slaveAddr :: body) (s.written m clears)).symm⟩

/-! ## The agents -/

/-- What is kept of the monitor's state. -/
theorem MonitorKept.monitor {s t : State} (h : MonitorKept s t) :
    t.ai = s.ai ∧ t.di = s.di ∧ t.sysStatus = s.sysStatus ∧ t.estop = s.estop ∧ t.lastCheck = s.lastCheck ∧
      t.warnCount = s.warnCount ∧ t.critCount = s.critCount ∧ t.emergCount = s.emergCount ∧
      t.relayOut = s.relayOut ∧ t.indOut = s.indOut ∧ (t.resetRequired = true → s.resetRequired = true) := by
  have hframe := h.frame
  refine ⟨?_, ?_, ?_, ?_, ?_, ?_, ?_, ?_, ?_, ?_, h.latch⟩ <;> rw [hframe]

/-- A step that is neither a cycle nor a reset leaves the monitor alone. -/
theorem step_keeps_monitor {s t : State} {e : Event} {es : List Event} (hi : s.inputs = e :: es) (h : step s = .next t)
    (he : (∃ b, e = .rxByte b) ∨ e = .rxError ∨ e = .rxSilence ∨ e = .msTick) : MonitorKept s t := by
  obtain hkept | ⟨a, d, es', hi', -⟩ | ⟨es', hi', -⟩ := step_kinds h
  · exact hkept
  · obtain rfl := (List.cons.inj (hi.symm.trans hi')).1
    simp at he
  · obtain rfl := (List.cons.inj (hi.symm.trans hi')).1
    simp at he

/-- Line silence, where it exists, only empties the receiver (rules R165, R166). -/
theorem onRxSilence_next {s t : State} (h : onRxSilence s = .next t) : t = s.setRxBuf [] := by
  unfold onRxSilence at h
  split at h
  · exact (Host.Outcome.next.inj h).symm
  · cases h

/-- An error, a silence or a tick leaves the latch as it is (rules R165, R166, R357). -/
theorem step_keeps_latch {s t : State} {e : Event} {es : List Event} (hi : s.inputs = e :: es) (h : step s = .next t)
    (he : e = .rxError ∨ e = .rxSilence ∨ e = .msTick) : t.resetRequired = s.resetRequired := by
  rw [step_of_event hi] at h
  obtain rfl | rfl | rfl := he
  · cases h
    rfl
  · rw [onRxSilence_next h]
    rfl
  · cases h
    rfl

/-- A cycle or a tick leaves the receiver and the transmit port alone (rules R332, R359). -/
theorem step_keeps_ports {s t : State} {e : Event} {es : List Event} (hi : s.inputs = e :: es) (h : step s = .next t)
    (he : (∃ a d, e = .cycle a d) ∨ e = .msTick) :
    t.rxBuf = s.rxBuf ∧ t.txLog = s.txLog ∧ t.txCount = s.txCount := by
  rw [step_of_event hi] at h
  obtain ⟨a, d, rfl⟩ | rfl := he
  · obtain ⟨-, hframe, -⟩ := runCycle_spec rfl (Host.Outcome.next.inj h)
    rw [hframe]
    exact ⟨rfl, rfl, rfl⟩
  · cases h
    exact ⟨rfl, rfl, rfl⟩

/-- No step changes the parameters. -/
theorem step_cfg {s t : State} (h : step s = .next t) : t.cfg = s.cfg := by
  obtain hkept | ⟨a, d, es, -, ht⟩ | ⟨es, -, rfl⟩ := step_kinds h
  · rw [hkept.frame]
  · obtain ⟨-, hframe, -⟩ := runCycle_spec rfl ht.symm
    rw [hframe]
    rfl
  · rfl

/-- Settles O48, by the event of the step. -/
theorem agentsAreIsolated : Obligations.AgentsAreIsolated := by
  refine ⟨fun s t e es hi h => ⟨fun he => ?_, step_keeps_latch hi h, step_keeps_ports hi h⟩, fun s t => step_cfg⟩
  exact (step_keeps_monitor hi h he).monitor

end Sys2Proof.Machine

/-! The read functions, and what a write leaves for a read (spec rules R200, R201, R224). Both functions answer from a
space by one rule. A step that sends nothing and is no reset is a cycle or keeps every holding register, and a cycle
keeps the ones that it does not publish; neither changes which those are, so that a register that only a request could
write keeps its value along the run. -/

namespace Sys2Proof.Machine

open Sys2Proof

/-! ## Reads -/

/-- The content of a read response over `n` registers (rule R124). -/
theorem readResponse_range (slave fc : Byte) (n : Nat) (g : Nat → Word) :
    readResponse slave fc ((List.range n).map g) =
      [slave, fc, BitVec.ofNat 8 (2 * n)] ++ (List.range n).flatMap fun k => [hi8 (g k), lo8 (g k)] := by
  rw [readResponse, List.length_map, List.length_range, List.flatMap_map]
  rfl

/-- A read request that passes its checks answers the space's registers in ascending order, high byte first (rules R200,
R201). -/
theorem readRegisters_answers {sp : Space} {fc : Byte} {addr qty : Word} {s : State}
    (hr : addr.toNat + qty.toNat ≤ s.spaceLen sp) (hq : qty.toNat ≤ s.cfg.maxReadQty) :
    readRegisters sp fc addr qty s =
      .next (s.logTx (withCrc ([s.cfg.slaveAddr, fc, BitVec.ofNat 8 (2 * qty.toNat)] ++
        (List.range qty.toNat).flatMap fun k =>
          [hi8 (s.spaceGet sp (addr.toNat + k)), lo8 (s.spaceGet sp (addr.toNat + k))]))) := by
  rw [readRegisters_inRange hr hq, readResponse_range, transmit]

/-- 0x03 inside the holding space (rule R200). -/
theorem exec_rhr_answers {addr qty : Word} {s : State} (hr : addr.toNat + qty.toNat ≤ s.cfg.holdingRegCount)
    (hq : qty.toNat ≤ s.cfg.maxReadQty) :
    exec (.rhr addr qty) s =
      .next (s.logTx (withCrc ([s.cfg.slaveAddr, 0x03, BitVec.ofNat 8 (2 * qty.toNat)] ++
        (List.range qty.toNat).flatMap fun k => [hi8 (s.hrGet (addr.toNat + k)), lo8 (s.hrGet (addr.toNat + k))]))) :=
  readRegisters_answers (sp := .holding) hr hq

/-- 0x04 inside the input space (rule R201). -/
theorem exec_rir_answers {addr qty : Word} {s : State} (hr : addr.toNat + qty.toNat ≤ s.cfg.inputRegCount)
    (hq : qty.toNat ≤ s.cfg.maxReadQty) :
    exec (.rir addr qty) s =
      .next (s.logTx (withCrc ([s.cfg.slaveAddr, 0x04, BitVec.ofNat 8 (2 * qty.toNat)] ++
        (List.range qty.toNat).flatMap fun k => [hi8 (s.irGet (addr.toNat + k)), lo8 (s.irGet (addr.toNat + k))]))) :=
  readRegisters_answers (sp := .input) hr hq

/-- Settles O23: the rule of both read functions, over the holding space. -/
theorem readHoldingRegisters : Obligations.ReadHoldingRegisters := by
  refine ⟨fun slave addr qty => decode_encode slave (i := .rhr addr qty) rfl,
    fun s addr qty => ⟨fun h => readRegisters_refused (sp := .holding) h, exec_rhr_answers⟩, ?_⟩
  rw [exec_rhr_answers (by decide) (by decide)]
  refine congrArg (fun frame => Host.Outcome.next (State.reset.logTx frame)) ?_
  decide +kernel

/-- Settles O24: the rule of both read functions, over the input space, whose registers read as after reset while none
has been written. -/
theorem readInputRegisters : Obligations.ReadInputRegisters := by
  refine ⟨fun slave addr qty => decode_encode slave (i := .rir addr qty) rfl,
    fun s addr qty => ⟨fun h => readRegisters_refused (sp := .input) h,
      fun hr hq => ⟨exec_rir_answers hr hq, fun ⟨unwritten, _, _⟩ => ?_⟩⟩, ?_⟩
  · simp only [exec_rir_answers hr hq, unwritten]
  · rw [exec_rir_answers (by decide) (by decide)]
    refine congrArg (fun frame => Host.Outcome.next (State.reset.logTx frame)) ?_
    decide +kernel

/-! ## A read after a write -/

/-- A read of one holding register answers its value: every instance allows a quantity of 1 (rules R10, R200). -/
theorem exec_rhr_one {a v : Word} {s : State} (ha : a.toNat < s.cfg.holdingRegCount) (hv : s.hrGet a.toNat = v) :
    exec (.rhr a 1) s = .next (s.logTx (withCrc [s.cfg.slaveAddr, 0x03, 0x02, hi8 v, lo8 v])) := by
  have hq : 1 ≤ s.cfg.maxReadQty := Nat.le_add_left 1 _
  subst hv
  exact exec_rhr_answers ha hq

/-- A WSR inside the holding space stores its value: the register that its reset-error command clears is another one
(rules R220, R222). -/
theorem exec_wsr_stores {addr value : Word} {s t : State} (ha : addr.toNat < s.cfg.holdingRegCount)
    (h : exec (.wsr addr value) s = .next t) : t.cfg = s.cfg ∧ t.hrGet addr.toNat = value := by
  obtain ⟨hframe, -⟩ := exec_keeps_monitor h
  refine ⟨by rw [hframe], ?_⟩
  obtain rfl := Host.Outcome.next.inj ((execWsr_inRange ha).symm.trans h)
  rw [transmit, State.hrGet_logTx, hrGet_resetErrorEffect, if_neg (by omega), State.hrGet_hrSet_same]

/-- A WMR that passes its check stores each of its words, but for one at SYS_ERROR that its own reset-error command
clears (rules R221 to R223). -/
theorem exec_wmr_stores {addr qty : Word} {bc : Byte} {data : List Byte} {k : Nat} {s t : State}
    (hr : addr.toNat + qty.toNat ≤ s.cfg.holdingRegCount) (hb : bc.toNat = 2 * qty.toNat) (hk : k < qty.toNat)
    (hcmd : addr.toNat + k = 0x108 → ¬ (Instr.wmr addr qty bc data).givesResetError)
    (h : exec (.wmr addr qty bc data) s = .next t) :
    t.cfg = s.cfg ∧ t.hrGet (addr.toNat + k) = wordAt data (2 * k) := by
  obtain ⟨hframe, -⟩ := exec_keeps_monitor h
  refine ⟨by rw [hframe], ?_⟩
  obtain ⟨u, hu, he⟩ := execWmr_inRange (data := data) hr hb
  obtain ⟨u', hu', -, hreads, -⟩ :=
    hrWriteRun_inRange (vs := dataWords data qty.toNat) (a := addr.toNat) (s := s) (by rwa [dataWords_length])
  obtain rfl : u' = u := Except.ok.inj (hu'.symm.trans hu)
  obtain rfl := Host.Outcome.next.inj (he.symm.trans h)
  have hin : addr.toNat ≤ addr.toNat + k ∧
      addr.toNat + k < addr.toNat + (dataWords data qty.toNat).length := by
    rw [dataWords_length]
    omega
  rw [transmit, State.hrGet_logTx,
    hreads _ fun hx hc => hcmd hx (givesResetError_of_runGivesResetError bc hc), runReads, if_pos hin,
    Nat.add_sub_cancel_left, dataWords_getD data hk]

/-- The word at two bytes that a list has (rule R121). -/
theorem wordAt_of_getElem? {f : List Byte} {k : Nat} {h l : Byte} (hh : f[k]? = some h) (hl : f[k + 1]? = some l) :
    wordAt f k = be16 h l := by
  simp [wordAt, byteAt, List.getD_eq_getElem?_getD, hh, hl]

/-! ## Runs without a request -/

/-- No event changes the list of those to come (rules R13, R177, R332; a reset by log entry 6). -/
theorem onEvent_inputs {e : Event} {s t : State} (h : onEvent e s = .next t) : t.inputs = s.inputs := by
  cases e with
  | rxByte b =>
    obtain ⟨-, -, rfl⟩ | ⟨-, rfl⟩ | ⟨-, -, ⟨i, -, he⟩ | ⟨e, -, rfl⟩⟩ := onRxByte_cases h
    · rfl
    · rfl
    · obtain ⟨hframe, -⟩ := exec_keeps_monitor he
      rw [hframe]
      rfl
    · rfl
  | rxSilence =>
    rw [onRxSilence_next h]
    rfl
  | cycle a d =>
    obtain ⟨-, hframe, -⟩ := runCycle_spec rfl (Host.Outcome.next.inj h)
    rw [hframe]
  | rxError | msTick | reset =>
    cases h
    rfl

/-- A step takes the first event off the list, if there is one (rule R13). -/
theorem step_inputs {s t : State} (h : step s = .next t) : t.inputs = s.inputs.tail := by
  cases hi : s.inputs with
  | nil =>
    rw [step, stepEvent, hi] at h
    cases h
    exact hi
  | cons e es => exact onEvent_inputs ((step_of_event hi).symm.trans h)

/-- A byte sends one response, for the request that it completes, or leaves the parameters, the registers and the
transmit port as they are (rules R161, R162, R175). -/
theorem onRxByte_sends_or_keeps {b : Byte} {s t : State} (h : onRxByte b s = .next t) :
    (∃ r, t.txLog = s.txLog ++ [r]) ∨ (t.cfg = s.cfg ∧ t.hr = s.hr ∧ t.txLog = s.txLog) := by
  obtain ⟨-, -, rfl⟩ | ⟨-, rfl⟩ | ⟨-, -, ⟨i, -, he⟩ | ⟨e, -, rfl⟩⟩ := onRxByte_cases h
  · exact .inr ⟨rfl, rfl, rfl⟩
  · exact .inr ⟨rfl, rfl, rfl⟩
  · obtain ⟨t', body, he', hresp, -⟩ := exec_responds i (s.setRxBuf [])
    obtain rfl : t' = t := Host.Outcome.next.inj (he'.symm.trans he)
    exact .inl ⟨_, hresp⟩
  · exact .inr ⟨rfl, rfl, rfl⟩

/-- A step sends one response, or is a cycle, or is a reset, or leaves the parameters and the registers as they are; it
sends nothing in the other three cases. -/
theorem step_sends_or_keeps {s t : State} (h : step s = .next t) :
    (∃ r, t.txLog = s.txLog ++ [r]) ∨
      (t.txLog = s.txLog ∧
        ((t.cfg = s.cfg ∧ t.hr = s.hr) ∨
          (∃ a d, Event.cycle a d ∈ s.inputs ∧ ∃ es, t = runCycle a d (s.setInputs es)) ∨
          Event.reset ∈ s.inputs)) := by
  obtain ⟨-, rfl⟩ | ⟨b, es, -, hb⟩ | ⟨es, -, rfl⟩ | ⟨es, -, -, rfl⟩ | ⟨a, d, es, hi, ht⟩ | ⟨es, -, rfl⟩ |
    ⟨es, hi, rfl⟩ := step_cases h
  · exact .inr ⟨rfl, .inl ⟨rfl, rfl⟩⟩
  · exact (onRxByte_sends_or_keeps hb).imp id fun ⟨hcfg, hhr, hlog⟩ => ⟨hlog, .inl ⟨hcfg, hhr⟩⟩
  · exact .inr ⟨rfl, .inl ⟨rfl, rfl⟩⟩
  · exact .inr ⟨rfl, .inl ⟨rfl, rfl⟩⟩
  · have hmem : Event.cycle a d ∈ s.inputs := by rw [hi]; exact .head es
    obtain ⟨-, hframe, -⟩ := runCycle_spec rfl ht.symm
    exact .inr ⟨by rw [hframe]; rfl, .inr (.inl ⟨a, d, hmem, es, ht⟩)⟩
  · exact .inr ⟨rfl, .inl ⟨rfl, rfl⟩⟩
  · exact .inr ⟨rfl, .inr (.inr (by rw [hi]; exact .head es))⟩

/-- A step only adds to what has been sent. -/
theorem step_txLog_prefix {s t : State} (h : step s = .next t) : s.txLog <+: t.txLog := by
  obtain ⟨r, hlog⟩ | ⟨hlog, -⟩ := step_sends_or_keeps h
  · exact ⟨[r], hlog.symm⟩
  · rw [hlog]

/-- A run only adds to what has been sent. -/
theorem run_txLog_prefix {n : Nat} {s t : State} (h : Host.Core.run Sys2Proof.core n s = .next t) :
    s.txLog <+: t.txLog :=
  run_keeps (P := fun u => s.txLog <+: u.txLog) (fun hu hstep => hu.trans (step_txLog_prefix hstep))
    (List.prefix_refl s.txLog) h

/-- A cycle leaves a register that it does not publish: one of no channel, or of a channel that is disabled (rules R262,
R275, R320). -/
theorem runCycle_keeps_unpublished {a : Vector Raw12 4} {d : Vector Bool 4} {s : State} {x : Nat}
    (hx : ¬ s.publishes x) : (runCycle a d s).hrGet x = s.hrGet x := by
  obtain ⟨hsystem, hchannels⟩ := not_or.mp hx
  obtain ⟨hanalog, hdigital⟩ := not_or.mp hchannels
  obtain ⟨-, -, -, -, hai, hdi, hother⟩ := sampleChannels_spec (a := a) (d := d) (s := s) rfl
  have hsampled : (sampleChannels a d s).hrGet x = s.hrGet x := by
    by_cases hisai : ∃ i, x = aiValueAddr i
    · obtain ⟨i, rfl⟩ := hisai
      have hdisabled : s.aiEnabled i = false := Bool.eq_false_iff.mpr fun he => hanalog ⟨i, rfl, he⟩
      rw [hai, State.goodSample, hdisabled]
      rfl
    by_cases hisdi : ∃ i, x = diStatusAddr i
    · obtain ⟨i, rfl⟩ := hisdi
      exact (hdi i).trans (if_neg fun he => hdigital ⟨i, rfl, he⟩)
    exact hother x (not_exists.mp hisai) (not_exists.mp hisdi)
  simp only [List.mem_cons, List.not_mem_nil, or_false, not_or] at hsystem
  obtain ⟨h0, h2, h3, h4, h5⟩ := hsystem
  rw [runCycle_hrGet rfl, if_neg h5, if_neg h4, if_neg h3, if_neg h2, if_neg h0, hsampled]

/-- None of the events to come writes holding register a but as a request: no reset is among them, and no cycle that
publishes it. -/
def State.spares (s : State) (a : Nat) : Prop :=
  Event.reset ∉ s.inputs ∧ (¬ s.publishes a ∨ ∀ x y, Event.cycle x y ∉ s.inputs)

/-- A register is spared still with fewer events to come: which ones a cycle publishes depends on configuration
registers alone. -/
theorem State.spares.mono {s t : State} {a : Nat} (hs : s.spares a) (hc : SameConfig s t) (hi : t.inputs ⊆ s.inputs) :
    t.spares a := by
  obtain ⟨hreset, hcycle⟩ := hs
  refine ⟨fun h => hreset (hi h), hcycle.imp (fun hp h => hp ?_) fun hn x y h => hn x y (hi h)⟩
  simpa only [State.publishes, hc.aiEnabled, hc.diEnabled] using h

/-- A step that sends nothing keeps a spared register, and spares it further. -/
theorem step_keeps_spared {s t : State} {a : Nat} (hs : s.spares a) (h : step s = .next t) (hlog : t.txLog = s.txLog) :
    t.spares a ∧ t.cfg = s.cfg ∧ t.hrGet a = s.hrGet a := by
  have hkept : SameConfig s t ∧ t.hrGet a = s.hrGet a := by
    obtain ⟨r, hsent⟩ | ⟨-, ⟨hcfg, hhr⟩ | ⟨x, y, hmem, es, rfl⟩ | hmem⟩ := step_sends_or_keeps h
    · simp [hlog] at hsent
    · have hreads := State.hrGet_congr hcfg hhr
      exact ⟨⟨hcfg, fun z _ => hreads z⟩, hreads a⟩
    · have hp : ¬ s.publishes a := hs.2.resolve_right fun hn => hn x y hmem
      exact ⟨runCycle_sameConfig x y (s.setInputs es), runCycle_keeps_unpublished (s := s.setInputs es) hp⟩
    · exact absurd hmem hs.1
  have hinputs : t.inputs ⊆ s.inputs := step_inputs h ▸ List.tail_subset s.inputs
  exact ⟨hs.mono hkept.1 hinputs, hkept.1.1, hkept.2⟩

/-- A run that sends nothing keeps a spared register. -/
theorem run_keeps_spared {a : Nat} :
    ∀ {n : Nat} {s t : State}, s.spares a → Host.Core.run Sys2Proof.core n s = .next t → t.txLog = s.txLog →
      t.cfg = s.cfg ∧ t.hrGet a = s.hrGet a
  | 0, _, _, _, h, _ => by
    cases h
    exact ⟨rfl, rfl⟩
  | n + 1, s, t, hs, h, hlog => by
    obtain ⟨u, hu, hrun⟩ := run_succ h
    have hfirst : u.txLog = s.txLog :=
      (hlog ▸ run_txLog_prefix hrun).eq_of_length_le (step_txLog_prefix hu).length_le
    obtain ⟨hspares, hcfg, hreads⟩ := step_keeps_spared hs hu hfirst
    obtain ⟨hcfg', hreads'⟩ := run_keeps_spared hspares hrun (hlog.trans hfirst.symm)
    exact ⟨hcfg'.trans hcfg, hreads'.trans hreads⟩

/-- Settles O29: the write leaves the value in the register, and a read of one register answers what it reads. -/
theorem writeThenReadRoundTrip : Obligations.WriteThenReadRoundTrip := by
  refine ⟨fun s t u addr value ha ht hcfg hreads => ?_,
    fun s t u addr qty a bc h l data k hr hb hk ha hh hl hcmd ht hcfg hreads => ?_,
    fun t u a n hreset hcycle hrun hlog => run_keeps_spared ⟨hreset, hcycle⟩ hrun hlog⟩
  · obtain ⟨hcfg', hvalue⟩ := exec_wsr_stores ha ht
    rw [← hcfg', ← hcfg]
    exact exec_rhr_one (by rwa [hcfg, hcfg']) (hreads.trans hvalue)
  · obtain ⟨hcfg', hvalue⟩ := exec_wmr_stores hr hb hk (ha ▸ hcmd) ht
    have hv : u.hrGet a.toNat = be16 h l := by rw [hreads, ha, hvalue, wordAt_of_getElem? hh hl]
    have hanswer := exec_rhr_one (by rw [hcfg, hcfg']; omega) hv
    rwa [hi8_be16, lo8_be16, hcfg, hcfg'] at hanswer

end Sys2Proof.Machine

/-! The write functions (spec rules R220 to R223). The write path stores one register, and its side effect reaches
SYS_ERROR and the latch alone; 0x06 is one write through that path and 0x10 a run of them in ascending order, and both
then echo the request's first six bytes. -/

namespace Sys2Proof.Machine

open Sys2Proof

/-! ## The write path and the response -/

/-- Settles O28: RESET_ERROR_CMD and SYS_ERROR are two registers, so the value stored outlives the side effect. -/
theorem writePathSideEffect : Obligations.WritePathSideEffect := by
  intro s a v h
  have hreads := hrGet_resetErrorEffect a (v := v) (s := s.hrSet a v)
  have hlatch := resetRequired_resetErrorEffect a v (s.hrSet a v)
  refine ⟨_, hrWrite_inRange v h, resetErrorEffect_frame a v _, ?_, fun hc => ⟨?_, ?_⟩, fun hc => ?_,
    fun x hx hc => ?_⟩
  · rw [hreads, if_neg (by omega), State.hrGet_hrSet_same]
  · rw [hreads, if_pos ⟨hc, rfl⟩]
  · rw [hlatch, if_pos hc]
  · rw [hlatch, if_neg hc]
    rfl
  · rw [hreads, if_neg (fun h' => hc ⟨h'.2, h'.1⟩), State.hrGet_hrSet_other s v hx]

/-- A response after changes to the holding registers and the latch alone: the rest of the state is as before, and the
response is the one transmitted (rules R174, R177). -/
theorem transmit_afterWrites (resp : List Byte) {s t : State}
    (h : t = { s with hr := t.hr, resetRequired := t.resetRequired }) :
    RequestFrame s (transmit resp t) ∧ Responds resp s (transmit resp t) := by
  rw [h]
  exact ⟨rfl, rfl, rfl⟩

/-! ## One register -/

/-- 0x06 after a write that the write path accepts transmits the echo (rule R220). -/
theorem exec_wsr_of_hrWrite {s u : State} {addr value : Word} (h : addr.toNat < s.cfg.holdingRegCount)
    (hu : hrWrite addr.toNat value s = .ok u) :
    exec (.wsr addr value) s = .next (transmit (echoResponse s.cfg.slaveAddr 0x06 addr value) u) := by
  rw [exec, execWsr, if_neg (by omega), hu]

/-- Settles O25: what the write path does (O28), then the echo. -/
theorem writeSingleRegister : Obligations.WriteSingleRegister := by
  refine ⟨fun slave addr value => decode_encode slave (i := .wsr addr value) rfl,
    fun s addr value => ⟨fun h => if_pos h, fun h => ?_⟩, ?_⟩
  · obtain ⟨u, hu, hframe, hvalue, hcmd, hkept, hothers⟩ := writePathSideEffect s addr.toNat value h
    obtain ⟨hrequest, hresponse⟩ := transmit_afterWrites (echoResponse s.cfg.slaveAddr 0x06 addr value) hframe
    exact ⟨_, exec_wsr_of_hrWrite h hu, hrequest, hresponse, hvalue, hcmd, hkept, hothers⟩
  · have he := execWsr_inRange (addr := 0x0044) (value := 500) (s := State.reset) (by decide)
    exact ⟨_, he, (exec_wsr_stores (by decide) he).2, by decide +kernel⟩

/-! ## Several registers -/

/-- The run of a 0x10 request's words gives the reset-error command exactly when the request does: the command is the
word at distance `0x109 - addr` (rules R221, R222). -/
theorem runGivesResetError_dataWords_iff (addr qty : Word) (bc : Byte) (data : List Byte) :
    runGivesResetError addr.toNat (dataWords data qty.toNat) ↔ (Instr.wmr addr qty bc data).givesResetError := by
  refine ⟨givesResetError_of_runGivesResetError bc, fun ⟨k, hk, ha, hone⟩ => ⟨by omega, ?_, ?_⟩⟩
  · rw [dataWords_length]
    omega
  · rw [show 0x109 - addr.toNat = k by omega, dataWords_getD data hk, hone]

/-- 0x10 that passes its check writes its run of words and echoes (rules R221 to R223). -/
theorem exec_wmr_accepted {s : State} {addr qty : Word} {bc : Byte} (data : List Byte)
    (hr : addr.toNat + qty.toNat ≤ s.cfg.holdingRegCount) (hb : bc.toNat = 2 * qty.toNat) :
    ∃ u, exec (.wmr addr qty bc data) s = .next (transmit (echoResponse s.cfg.slaveAddr 0x10 addr qty) u) ∧
      u = { s with hr := u.hr, resetRequired := u.resetRequired } ∧
      (∀ x, (x = 0x108 → ¬ (Instr.wmr addr qty bc data).givesResetError) →
        u.hrGet x = runReads addr.toNat (dataWords data qty.toNat) s x) ∧
      ((Instr.wmr addr qty bc data).givesResetError → u.hrGet 0x108 = 0 ∧ u.resetRequired = false) ∧
      (¬ (Instr.wmr addr qty bc data).givesResetError → u.resetRequired = s.resetRequired) := by
  obtain ⟨u, hu, he⟩ := execWmr_inRange (data := data) hr hb
  obtain ⟨u', hu', hspec⟩ :=
    hrWriteRun_inRange (vs := dataWords data qty.toNat) (a := addr.toNat) (s := s) (by rwa [dataWords_length])
  obtain rfl : u' = u := Except.ok.inj (hu'.symm.trans hu)
  rw [runGivesResetError_dataWords_iff addr qty bc data] at hspec
  exact ⟨u', he, hspec⟩

/-- A run of `n` words leaves a register outside its range as it was. -/
theorem runReads_outside {a n x : Nat} (data : List Byte) (s : State) (h : x < a ∨ a + n ≤ x) :
    runReads a (dataWords data n) s x = s.hrGet x := by
  rw [runReads, dataWords_length, if_neg (by omega)]

/-- A WMR that passes its check stores the bytes of its word k, high byte first (rules R15, R121, R221). -/
theorem exec_wmr_stores_bytes {addr qty : Word} {bc h l : Byte} {data : List Byte} {k : Nat} {s t : State}
    (hr : addr.toNat + qty.toNat ≤ s.cfg.holdingRegCount) (hb : bc.toNat = 2 * qty.toNat) (hk : k < qty.toNat)
    (hcmd : addr.toNat + k = 0x108 → ¬ (Instr.wmr addr qty bc data).givesResetError)
    (hh : data[2 * k]? = some h) (hl : data[2 * k + 1]? = some l)
    (ht : exec (.wmr addr qty bc data) s = .next t) :
    (t.hrGet (addr.toNat + k)).toNat = h.toNat * 256 + l.toNat := by
  obtain ⟨-, hvalue⟩ := exec_wmr_stores hr hb hk hcmd ht
  rw [hvalue, wordAt_of_getElem? hh hl, be16_toNat]

/-- Settles O26: what the run of writes does, then the echo. -/
theorem writeMultipleRegisters : Obligations.WriteMultipleRegisters := by
  refine ⟨fun slave addr qty bc data hlen =>
      decode_encode slave (i := .wmr addr qty bc data) (by simpa [Instr.wf] using hlen),
    fun s addr qty bc data _ => ⟨fun h => execWmr_refused h, fun hr hb => ?_⟩, ?_⟩
  · obtain ⟨u, he, hframe, hreads, hcmd, hkept⟩ := exec_wmr_accepted data hr hb
    obtain ⟨hrequest, hresponse⟩ := transmit_afterWrites (echoResponse s.cfg.slaveAddr 0x10 addr qty) hframe
    exact ⟨_, he, hrequest, hresponse,
      fun k hk hne h l hh hl => exec_wmr_stores_bytes hr hb hk hne hh hl he, hcmd, hkept,
      fun x hx hne => (hreads x hne).trans (runReads_outside data s hx)⟩
  · obtain ⟨u, he, hframe, hreads, -⟩ := exec_wmr_accepted (s := State.reset) (addr := 0x0044) (qty := 2) (bc := 4)
      [0x01, 0xF4, 0x03, 0xE8] (by decide) (by decide)
    have hecho : withCrc (echoResponse 0x01 0x10 0x0044 2) = [0x01, 0x10, 0x00, 0x44, 0x00, 0x02, 0x01, 0xDD] := by
      decide +kernel
    refine ⟨_, he, (hreads 0x44 (fun h => absurd h (by decide))).trans (by decide),
      (hreads 0x45 (fun h => absurd h (by decide))).trans (by decide), ?_⟩
    rw [transmit_sent, hframe]
    exact congrArg (fun frame => [frame]) hecho

end Sys2Proof.Machine

/-! The illegal function codes (spec rule R250). A code outside the supported set decodes like every other request, and
its whole execution is the exception response, from which bytes 2 to 5 are missing. -/

namespace Sys2Proof.Machine

open Sys2Proof

/-- An illegal code is answered with exception 0x01, and does nothing else (rules R250, R343). -/
theorem exec_illegal (fc b2 b3 b4 b5 : Byte) (s : State) :
    exec (.illegal fc b2 b3 b4 b5) s = .next (s.logTx (withCrc [s.cfg.slaveAddr, fc ||| 0x80, 0x01])) := rfl

/-- Settles O27: a code outside the supported set makes a well-formed request, and its execution is one response. -/
theorem illegalFunctionCode : Obligations.IllegalFunctionCode := by
  have hresponse : withCrc [State.reset.cfg.slaveAddr, 0x01 ||| 0x80, 0x01] = [0x01, 0x81, 0x01, 0x81, 0x90] := by
    decide +kernel
  refine ⟨fun slave fc b2 b3 b4 b5 h3 h4 h6 h10 => ?_, fun s fc b2 b3 b4 b5 => exec_illegal fc b2 b3 b4 b5 s, ?_⟩
  · exact decode_encode slave (wf_illegal_iff.mpr ⟨h3, h4, h6, h10⟩)
  · rw [exec_illegal, hresponse]

end Sys2Proof.Machine

/-! The safety monitor's outputs and what no step produces (spec rules R300 to R303, R330). -/

namespace Sys2Proof.Machine

open Sys2Proof

/-! ## The outputs of a step -/

/-- A protective output: what leaves the monitor alone keeps it, a cycle drives it, a reset clears it (rules R300 to
R303, R381). -/
structure ProtectiveOutput (out : State → Bool) : Prop where
  kept : ∀ {s t : State}, MonitorKept s t → out t = out s
  cycle : ∀ {a : Vector Raw12 4} {d : Vector Bool 4} {s t : State}, runCycle a d s = t →
    out t = drivenTo t.sysStatus (out s) (s.resetRequired && !s.autoReset)
  reset : ∀ s : State, out (onReset s) = false

theorem relayOut_protective : ProtectiveOutput State.relayOut where
  kept h := by rw [h.frame]
  cycle h := by
    obtain ⟨-, -, -, -, -, -, -, -, hrelay, -⟩ := runCycle_spec rfl h
    exact hrelay
  reset _ := rfl

theorem indOut_protective : ProtectiveOutput State.indOut where
  kept h := by rw [h.frame]
  cycle h := by
    obtain ⟨-, -, -, -, -, -, -, -, -, hind, -⟩ := runCycle_spec rfl h
    exact hind
  reset _ := rfl

/-- Auto-reset is the register AUTO_RESET_EN, not 0 (rule R52). -/
theorem State.autoReset_eq_true_iff (s : State) : s.autoReset = true ↔ s.hrGet 0x4A ≠ 0 := by
  simp [State.autoReset]

section Output

variable {out : State → Bool}

/-- An output becomes asserted in a CRITICAL cycle only: every other kind of step keeps or clears it. -/
theorem ProtectiveOutput.step_asserts (hout : ProtectiveOutput out) {s t : State} (h : step s = .next t)
    (hs : out s = false) (ht : out t = true) : ∃ a d es, s.inputs = .cycle a d :: es ∧ t.sysStatus = .critical := by
  obtain hkept | ⟨a, d, es, hi, he⟩ | ⟨es, -, rfl⟩ := step_kinds h
  · cases hs.symm.trans ((hout.kept hkept).symm.trans ht)
  · have hdriven := hout.cycle he.symm
    rw [hout.kept (.setInputs s es), hs, ht] at hdriven
    exact ⟨a, d, es, hi, critical_of_drivenTo hdriven.symm⟩
  · cases (hout.reset _).symm.trans ht

/-- An output clears in an OK cycle that does not keep the latch, or by a reset. -/
theorem ProtectiveOutput.step_clears (hout : ProtectiveOutput out) {s t : State} (h : step s = .next t)
    (hs : out s = true) (ht : out t = false) :
    (∃ a d es, s.inputs = .cycle a d :: es ∧ t.sysStatus = .ok ∧ (s.resetRequired = false ∨ s.hrGet 0x4A ≠ 0)) ∨
      ∃ es, s.inputs = .reset :: es := by
  obtain hkept | ⟨a, d, es, hi, he⟩ | ⟨es, hi, -⟩ := step_kinds h
  · cases hs.symm.trans ((hout.kept hkept).symm.trans ht)
  · have hdriven := hout.cycle he.symm
    rw [hout.kept (.setInputs s es), hs, ht] at hdriven
    obtain ⟨hok, hnotKept⟩ := ok_of_drivenTo hdriven.symm
    have hclear : (s.setInputs es).resetRequired = false ∨ (s.setInputs es).autoReset = true := by
      simpa only [Bool.and_eq_false_iff, Bool.not_eq_false'] using hnotKept
    exact .inl ⟨a, d, es, hi, hok, hclear.imp id (State.autoReset_eq_true_iff _).mp⟩
  · exact .inr ⟨es, hi⟩

end Output

/-- Settles O50: relay and indicator are both protective outputs, and each changes only as one does. -/
theorem outputsChangeOnlyAsStated : Obligations.OutputsChangeOnlyAsStated := by
  refine fun s t h => ⟨?_, ?_⟩
  · rintro (⟨hs, ht⟩ | ⟨hs, ht⟩)
    · exact relayOut_protective.step_asserts h hs ht
    · exact indOut_protective.step_asserts h hs ht
  · rintro (⟨hs, ht⟩ | ⟨hs, ht⟩)
    · exact relayOut_protective.step_clears h hs ht
    · exact indOut_protective.step_clears h hs ht

/-- Settles O51, by the kinds of step: an aggregate that leaves the latch set leaves the outputs asserted. -/
theorem stepKeepsOutputsLatched : Obligations.StepKeepsOutputsLatched :=
  fun _ _ => outputsLatched_invariant.step

/-- The step of a cycle event answers the state after the cycle. -/
theorem step_cycle_next {s t : State} {a : Vector Raw12 4} {d : Vector Bool 4} {es : List Event}
    (hi : s.inputs = .cycle a d :: es) (h : step s = .next t) : runCycle a d (s.setInputs es) = t :=
  Host.Outcome.next.inj ((step_cycle hi).symm.trans h)

/-- Settles O54: the invariant by the kinds of step; ESTOP_STATUS is not among the published registers. -/
theorem stepNeverProducesEmergency : Obligations.StepNeverProducesEmergency := by
  refine ⟨fun s t => noEmergency_invariant.step, fun s t a d es hi h => ?_⟩
  obtain ⟨-, hregs⟩ := step_cycle_next hi h ▸ runCycle_sameConfig a d (s.setInputs es)
  exact hregs 0x1 (by decide)

end Sys2Proof.Machine

/-! The readings of an analog channel (spec rules R262 to R270, R401). The six classifications are numbered along the
chain of rule R267: one has the number of the first test that the distance passes, so a greater distance, which passes no
test that a lesser one fails, has no lower number. -/

namespace Sys2Proof.Machine

open Sys2Proof

/-! ## The chain of tests -/

theorem Dist.isZero_iff {d : Dist} : Dist.isZero d = true ↔ d.num = 0 := by
  simp [Dist.isZero]

theorem Dist.le_iff {d : Dist} {z : Word} : Dist.le d z = true ↔ d.num ≤ z.toNat * (d.denPred + 1) := by
  simp [Dist.le]

theorem Dist.not_le_of_lt {d : Dist} {z : Word} (h : z.toNat * (d.denPred + 1) < d.num) : ¬ Dist.le d z = true :=
  fun hle => Nat.not_le.mpr h (Dist.le_iff.mp hle)

/-- A distance at or below a threshold is at or below a greater one. -/
theorem Dist.le_trans {d : Dist} {z z' : Word} (hd : Dist.le d z = true) (hz : z.toNat ≤ z'.toNat) :
    Dist.le d z' = true :=
  Dist.le_iff.mpr ((Dist.le_iff.mp hd).trans (Nat.mul_le_mul_right _ hz))

/-- A lesser distance is at or below every threshold that a greater one is. -/
theorem Dist.le_of_leDist {d d' : Dist} {z : Word} (h : Dist.leDist d d') (hz : Dist.le d' z = true) :
    Dist.le d z = true := by
  rw [Dist.le_iff] at hz ⊢
  refine Nat.le_of_mul_le_mul_right ?_ (Nat.succ_pos d'.denPred)
  calc d.num * (d'.denPred + 1)
      _ ≤ d'.num * (d.denPred + 1) := h
      _ ≤ z.toNat * (d'.denPred + 1) * (d.denPred + 1) := Nat.mul_le_mul_right _ hz
      _ = z.toNat * (d.denPred + 1) * (d'.denPred + 1) := Nat.mul_right_comm ..

theorem Dist.isZero_of_leDist {d d' : Dist} (h : Dist.leDist d d') (hz : Dist.isZero d' = true) :
    Dist.isZero d = true := by
  rw [Dist.isZero_iff] at hz ⊢
  unfold Dist.leDist at h
  rw [hz, Nat.zero_mul, Nat.le_zero, Nat.mul_eq_zero] at h
  exact h.resolve_right (Nat.succ_ne_zero _)

section Chain

variable {z1 z2 z3 z4 : Word} {d d' : Dist}

/-- The tests of rule R267 by their number in the chain, from 0 on; every distance passes the last. -/
def chainTest (z1 z2 z3 z4 : Word) (d : Dist) : Nat → Bool
  | 0 => Dist.isZero d
  | 1 => Dist.le d z1
  | 2 => Dist.le d z2
  | 3 => Dist.le d z3
  | 4 => Dist.le d z4
  | _ => true

/-- A lesser distance passes every test that a greater one passes. -/
theorem chainTest_of_leDist (h : Dist.leDist d d') :
    ∀ {k : Nat}, chainTest z1 z2 z3 z4 d' k = true → chainTest z1 z2 z3 z4 d k = true
  | 0, hk => Dist.isZero_of_leDist h hk
  | 1, hk | 2, hk | 3, hk | 4, hk => Dist.le_of_leDist h hk
  | _ + 5, _ => rfl

/-- The rank of a classification is the number of the first test that the distance passes (rule R267). -/
theorem zoneRank_classify_first (z1 z2 z3 z4 : Word) (d : Dist) :
    chainTest z1 z2 z3 z4 d (zoneRank (classify z1 z2 z3 z4 d)) = true ∧
      ∀ k < zoneRank (classify z1 z2 z3 z4 d), chainTest z1 z2 z3 z4 d k = false := by
  obtain ⟨h0, h⟩ | ⟨h0, ⟨h1, h⟩ | ⟨h1, ⟨h2, h⟩ | ⟨h2, ⟨h3, h⟩ | ⟨h3, ⟨h4, h⟩ | ⟨h4, h⟩⟩⟩⟩⟩ :=
    classify_cases z1 z2 z3 z4 d
  all_goals rw [h]
  · exact ⟨h0, fun k hk => absurd hk (Nat.not_lt_zero k)⟩
  · refine ⟨h1, fun k (hk : k < 1) => ?_⟩
    interval_cases k
    exact h0
  · refine ⟨h2, fun k (hk : k < 2) => ?_⟩
    interval_cases k <;> assumption
  · refine ⟨h3, fun k (hk : k < 3) => ?_⟩
    interval_cases k <;> assumption
  · refine ⟨h4, fun k (hk : k < 4) => ?_⟩
    interval_cases k <;> assumption
  · refine ⟨rfl, fun k (hk : k < 5) => ?_⟩
    interval_cases k <;> assumption

theorem zoneRank_classify_le {k : Nat} (h : chainTest z1 z2 z3 z4 d k = true) :
    zoneRank (classify z1 z2 z3 z4 d) ≤ k := by
  by_contra hlt
  cases h.symm.trans ((zoneRank_classify_first z1 z2 z3 z4 d).2 k (Nat.lt_of_not_le hlt))

/-- A greater distance is classified no earlier in the chain. -/
theorem zoneRank_classify_mono (h : Dist.leDist d d') :
    zoneRank (classify z1 z2 z3 z4 d) ≤ zoneRank (classify z1 z2 z3 z4 d') :=
  zoneRank_classify_le (chainTest_of_leDist h (zoneRank_classify_first z1 z2 z3 z4 d').1)

/-- A classification whose test cannot be passed without passing an earlier one is never reached (rule R401). -/
theorem zoneRank_classify_ne {j k : Nat} (hjk : j < k)
    (himp : chainTest z1 z2 z3 z4 d k = true → chainTest z1 z2 z3 z4 d j = true) :
    zoneRank (classify z1 z2 z3 z4 d) ≠ k := fun hk =>
  absurd (zoneRank_classify_le (himp (hk ▸ (zoneRank_classify_first z1 z2 z3 z4 d).1))) (by omega)

end Chain

/-- The status of the classifications of a rank. -/
def rankStatus : Nat → Status
  | 0 => .error
  | 1 => .critical
  | 2 | 3 => .warning
  | _ => .ok

theorem classify_status (z1 z2 z3 z4 : Word) (d : Dist) :
    (classify z1 z2 z3 z4 d).1 = rankStatus (zoneRank (classify z1 z2 z3 z4 d)) := by
  obtain ⟨-, h⟩ | ⟨-, ⟨-, h⟩ | ⟨-, ⟨-, h⟩ | ⟨-, ⟨-, h⟩ | ⟨-, ⟨-, h⟩ | ⟨-, h⟩⟩⟩⟩⟩ :=
    classify_cases z1 z2 z3 z4 d
  all_goals rw [h]; rfl

theorem zoneRank_le (z : Status × Byte) : zoneRank z ≤ 5 := by
  unfold zoneRank
  split_ifs <;> omega

/-- Past ERROR the chain runs in the order of precedence (rules R267, R285). -/
theorem precedence_rankStatus :
    ∀ n ≤ 5, ∀ m ≤ n, m ≠ 0 → precedence [rankStatus m, rankStatus n] = rankStatus m := by decide

/-- Settles O32, by the numbers of the classifications: a greater distance has no lower one. -/
theorem fartherIsNeverMoreSevere : Obligations.FartherIsNeverMoreSevere := by
  refine ⟨fun z1 z2 z3 z4 d d' h => ⟨zoneRank_classify_mono h, fun hd => ?_⟩, fun z1 z2 z3 z4 d =>
    ⟨fun hz he => ?_, fun hz he => ?_, fun hz he => ?_⟩⟩
  · have hrank : zoneRank (classify z1 z2 z3 z4 d) ≠ 0 := fun h0 =>
      hd (Dist.isZero_iff.mp (show chainTest z1 z2 z3 z4 d 0 = true from
        h0 ▸ (zoneRank_classify_first z1 z2 z3 z4 d).1))
    rw [classify_status, classify_status]
    exact precedence_rankStatus _ (zoneRank_le _) _ (zoneRank_classify_mono h) hrank
  · exact zoneRank_classify_ne (j := 1) (k := 2) (by decide) (fun h2 => Dist.le_trans h2 hz) (congrArg zoneRank he)
  · exact zoneRank_classify_ne (j := 2) (k := 3) (by decide) (fun h3 => Dist.le_trans h3 hz) (congrArg zoneRank he)
  · exact zoneRank_classify_ne (j := 3) (k := 4) (by decide) (fun h4 => Dist.le_trans h4 hz) (congrArg zoneRank he)

/-- Settles O31, test by test: one that holds decides, and one that fails leaves the rest of the chain. -/
theorem classificationChain : Obligations.ClassificationChain := by
  refine ⟨fun s d => ?_, by decide, by decide, by decide⟩
  unfold State.classifyDist classify
  refine ⟨fun h0 => if_pos (Dist.isZero_iff.mpr h0), fun h0 => ?_⟩
  rw [if_neg (mt Dist.isZero_iff.mp h0)]
  refine ⟨fun h1 => if_pos (Dist.le_iff.mpr h1), fun h1 => ?_⟩
  rw [if_neg (Dist.not_le_of_lt h1)]
  refine ⟨fun h2 => if_pos (Dist.le_iff.mpr h2), fun h2 => ?_⟩
  rw [if_neg (Dist.not_le_of_lt h2)]
  refine ⟨fun h3 => if_pos (Dist.le_iff.mpr h3), fun h3 => ?_⟩
  rw [if_neg (Dist.not_le_of_lt h3)]
  exact ⟨fun h4 => if_pos (Dist.le_iff.mpr h4), fun h4 => if_neg (Dist.not_le_of_lt h4)⟩

/-! ## Readings -/

/-- Settles O35: the product of a raw sample and V_REF_MV stays below 4096 * 65521. -/
theorem millivoltsFitTheRegister : Obligations.MillivoltsFitTheRegister := by
  have value {p : Params} {raw : Raw12} {mv : Word} (h : raw.toNat * p.vRefMv / 4096 = mv.toNat) :
      millivolts p raw = mv :=
    BitVec.eq_of_toNat_eq ((millivolts_toNat p raw).1.trans h)
  refine ⟨millivolts_toNat, fun p hp => ⟨value ?_, value ?_, value ?_⟩⟩ <;> rw [hp] <;> rfl

theorem analogReading_error {i : Fin 4} {raw : Raw12} {d : Dist} {s : State} (h : (s.classifyDist d).1 = .error) :
    analogReading i raw d s = s.setAi i (s.ai[i].readError raw (s.classifyDist d)) :=
  if_pos h

theorem analogReading_good {i : Fin 4} {raw : Raw12} {d : Dist} {s : State} (h : (s.classifyDist d).1 ≠ .error) :
    analogReading i raw d s =
      (s.setAi i (s.ai[i].goodReading raw (s.classifyDist d) d (millivolts s.cfg raw))).hrSet (aiValueAddr i)
        (millivolts s.cfg raw) :=
  if_neg h

/-- Settles O33: an ERROR reading replaces the channel only, a good one the channel and its value register. -/
theorem analogReadingIsRecorded : Obligations.AnalogReadingIsRecorded := by
  intro s i raw d z t mv
  by_cases hz : z.1 = .error
  · have ht : t = s.setAi i (s.ai[i].readError raw z) := analogReading_error hz
    have hi : t.ai[i] = s.ai[i].readError raw z := by rw [ht, State.ai_setAi, if_pos rfl]
    rw [hi]
    refine ⟨by rw [ht]; rfl, fun j hj => by rw [ht, State.ai_setAi, if_neg hj], rfl, rfl, rfl, fun _ => ?_,
      fun hgood => absurd hz hgood⟩
    exact ⟨rfl, rfl, rfl, rfl, rfl, fun x => by rw [ht, State.hrGet_setAi]⟩
  · have ht : t = (s.setAi i (s.ai[i].goodReading raw z d (millivolts s.cfg raw))).hrSet (aiValueAddr i)
        (millivolts s.cfg raw) := analogReading_good hz
    have hi : t.ai[i] = s.ai[i].goodReading raw z d (millivolts s.cfg raw) := by
      rw [ht, State.hrSet_ai, State.ai_setAi, if_pos rfl]
    have hmv : (millivolts s.cfg raw).toNat = mv := (millivolts_toNat s.cfg raw).1
    have hregs : ∀ x, t.hrGet x = if x = 0x10 + i.val then millivolts s.cfg raw else s.hrGet x := fun x => by
      rw [ht, State.hrGet_hrSet, State.hrGet_setAi, aiValueAddr]
    rw [hi]
    refine ⟨by rw [ht]; rfl, fun j hj => by rw [ht, State.hrSet_ai, State.ai_setAi, if_neg hj], rfl, rfl, rfl,
      fun herr => absurd herr hz, fun _ => ?_⟩
    refine ⟨rfl, rfl, hmv, ?_, ?_, ?_, fun x hx => by rw [hregs, if_neg hx]⟩
    · exact hmv ▸ wordMin_toNat _ _
    · exact hmv ▸ wordMax_toNat _ _
    · rw [hregs, if_pos rfl, hmv]

theorem State.aiEnabled_eq_true_iff (s : State) (i : Fin 4) : s.aiEnabled i = true ↔ s.hrGet (0x1A + i.val) ≠ 0 := by
  simp [State.aiEnabled, aiEnableAddr]

/-- A disabled analog channel is left alone (rule R262). -/
theorem analogStep_disabled {i : Fin 4} {s : State} (raw : Raw12) (h : s.hrGet (0x1A + i.val) = 0) :
    analogStep i raw s = s :=
  if_neg fun he => (s.aiEnabled_eq_true_iff i).mp he h

/-- Settles O34: the step asks the enable register, and the distance asks whether the sample is inactive. -/
theorem analogStepReadsEnabledChannel : Obligations.AnalogStepReadsEnabledChannel := by
  intro s i raw
  refine ⟨analogStep_disabled raw, fun h => ?_⟩
  have hstep : analogStep i raw s = analogReading i raw (s.distance raw) s :=
    if_pos ((s.aiEnabled_eq_true_iff i).mpr h)
  refine ⟨fun hin => ?_, fun hact => ?_⟩
  · have hd : s.distance raw = ⟨0, 0⟩ := if_pos (decide_eq_true hin)
    rw [hstep, hd]
  · have hd : s.distance raw = Config.distFn s.cfg raw (s.hrGet 0x14) (s.hrGet 0x15) :=
      if_neg fun hin => absurd (of_decide_eq_true hin) (Nat.not_lt.mpr hact)
    rw [hstep, hd]

end Sys2Proof.Machine

/-! The debounce of a digital channel (spec rules R275 to R280): a sample commits the active comparison or keeps the
debounced state, so that a run of samples of one level is an induction over the samples. -/

namespace Sys2Proof.Machine

open Sys2Proof

/-! ## One sample -/

section Sample

variable {c : DigitalChannel} {lvl act : Bool} {now interval : Word32}

theorem DigitalChannel.edgeAfter_of_edge (h : lvl ≠ c.prevLevel) : c.edgeAfter lvl now = now :=
  if_pos (bne_iff_ne.mpr h)

theorem DigitalChannel.edgeAfter_of_same (h : lvl = c.prevLevel) : c.edgeAfter lvl now = c.edgeTime :=
  if_neg fun hne => bne_iff_ne.mp hne h

/-- A sample commits when the active comparison differs and has persisted longer than the interval (rule R278). -/
theorem DigitalChannel.commits_iff :
    c.commits lvl act now interval = true ↔
      act ≠ c.active ∧ interval.toNat < (now - c.edgeAfter lvl now).toNat := by
  simp [DigitalChannel.commits]

theorem DigitalChannel.sample_committed (h : c.commits lvl act now interval = true) :
    c.sample lvl act now interval =
      { level := lvl, prevLevel := lvl, edgeTime := c.edgeAfter lvl now, active := act, changes := c.changes + 1,
        commitTime := now, errors := c.errors, flags := digitalFlags act } := by
  simp only [DigitalChannel.sample, DigitalChannel.activeAfter, h, if_true]

theorem DigitalChannel.sample_kept (h : ¬ c.commits lvl act now interval = true) :
    c.sample lvl act now interval =
      { c with level := lvl, prevLevel := lvl, edgeTime := c.edgeAfter lvl now, flags := digitalFlags c.active } := by
  simp only [DigitalChannel.sample, DigitalChannel.activeAfter, h]
  rfl

end Sample

/-! ## Many samples of one level -/

/-- Samples of the level that the channel has, within the interval of its last edge, keep the debounced state, its
change counter and the edge time. -/
theorem samples_within_interval (lvl act : Bool) (interval : Word32) :
    ∀ {times : List Word32} {c : DigitalChannel}, lvl = c.prevLevel →
      (∀ now ∈ times, (now - c.edgeTime).toNat ≤ interval.toNat) →
      let c' := times.foldl (fun c now => c.sample lvl act now interval) c
      c'.active = c.active ∧ c'.changes = c.changes ∧ c'.edgeTime = c.edgeTime
  | [], _, _, _ => ⟨rfl, rfl, rfl⟩
  | now :: times, c, hlvl, hin => by
    have hedge : c.edgeAfter lvl now = c.edgeTime := DigitalChannel.edgeAfter_of_same hlvl
    have hkept : ¬ c.commits lvl act now interval = true := fun hc => by
      obtain ⟨-, hlate⟩ := DigitalChannel.commits_iff.mp hc
      rw [hedge] at hlate
      exact Nat.not_lt.mpr (hin now (.head times)) hlate
    have hsample := DigitalChannel.sample_kept hkept
    rw [hedge] at hsample
    rw [List.foldl_cons, hsample]
    exact samples_within_interval lvl act interval rfl fun now' h => hin now' (.tail now h)

/-- Samples whose active comparison is the debounced state keep it, its change counter and its commit time. -/
theorem samples_of_active (lvl act : Bool) (interval : Word32) :
    ∀ {times : List Word32} {c : DigitalChannel}, act = c.active →
      let c' := times.foldl (fun c now => c.sample lvl act now interval) c
      c'.active = c.active ∧ c'.changes = c.changes ∧ c'.commitTime = c.commitTime
  | [], _, _ => ⟨rfl, rfl, rfl⟩
  | now :: times, c, hact => by
    have hkept : ¬ c.commits lvl act now interval = true := fun hc => (DigitalChannel.commits_iff.mp hc).1 hact
    rw [List.foldl_cons, DigitalChannel.sample_kept hkept]
    exact samples_of_active lvl act interval hact

/-- Settles O37: the sample with the edge sets the edge time to now, so no time has elapsed, and the further samples stay
within the interval. -/
theorem shortFlipIsNotCounted : Obligations.ShortFlipIsNotCounted := by
  intro c lvl act edge interval times hflip hin
  have hedge : c.edgeAfter lvl edge = edge := DigitalChannel.edgeAfter_of_edge hflip
  have hkept : ¬ c.commits lvl act edge interval = true := fun hc => by
    obtain ⟨-, hlate⟩ := DigitalChannel.commits_iff.mp hc
    rw [hedge, BitVec.sub_self] at hlate
    exact Nat.not_lt_zero _ hlate
  rw [DigitalChannel.sample_kept hkept, hedge]
  exact samples_within_interval lvl act interval rfl hin

/-- Settles O38: the first sample commits, and after it the active comparison is the debounced state. -/
theorem persistentFlipCountsOnce : Obligations.PersistentFlipCountsOnce := by
  intro c lvl act now interval times hlvl hact hlate
  have hcommits : c.commits lvl act now interval = true :=
    DigitalChannel.commits_iff.mpr ⟨hact, by rwa [DigitalChannel.edgeAfter_of_same hlvl]⟩
  rw [DigitalChannel.sample_committed hcommits]
  exact samples_of_active lvl act interval rfl

/-! ## The whole step -/

theorem State.diEnabled_eq_true_iff (s : State) (i : Fin 4) : s.diEnabled i = true ↔ s.hrGet (0x26 + i.val) ≠ 0 := by
  simp [State.diEnabled, diEnableAddr]

theorem State.activeHigh_eq (s : State) (i : Fin 4) : s.activeHigh i = decide (s.hrGet (0x2A + i.val) ≠ 0) := by
  rw [Bool.eq_iff_iff]
  simp [State.activeHigh, diActiveLevelAddr]

/-- A disabled digital channel is left alone (rule R275). -/
theorem digitalStep_disabled {i : Fin 4} {s : State} (lvl : Bool) (now : Word32) (h : s.hrGet (0x26 + i.val) = 0) :
    digitalStep i lvl now s = s :=
  if_neg fun he => (s.diEnabled_eq_true_iff i).mp he h

/-- The time since a millisecond, modulo 2^32 (rule R356). -/
theorem elapsed_toNat (now edge : Word32) : (now - edge).toNat = (now.toNat + 2 ^ 32 - edge.toNat) % 2 ^ 32 := by
  rw [BitVec.toNat_sub]
  omega

/-- Settles O36: the step of an enabled channel is one sample, which commits or keeps the debounced state. -/
theorem digitalStepDebounces : Obligations.DigitalStepDebounces := by
  intro s i lvl now
  refine ⟨digitalStep_disabled lvl now, fun h => ?_⟩
  intro t act elapsed
  have henabled : s.diEnabled i = true := (s.diEnabled_eq_true_iff i).mpr h
  obtain ⟨-, hframe, hdi, hregs⟩ := digitalStep_spec i lvl now s
  have hafter : s.diAfter i lvl now = s.di[i].sample lvl act now s.cfg.debounceMs[i] := by
    rw [State.diAfter, if_pos henabled, State.diSampled, State.activeHigh_eq]
  have hi : t.di[i] = s.di[i].sample lvl act now s.cfg.debounceMs[i] := by
    rw [hdi, if_pos rfl, hafter]
  have hstatus : ∀ x, t.hrGet x = if x = 0x22 + i.val then (if t.di[i].active then 1 else 0) else s.hrGet x := by
    intro x
    rw [hregs, hi, hafter, henabled]
    simp only [diStatusAddr, and_true]
  have hedge : t.di[i].edgeTime = s.di[i].edgeAfter lvl now := by rw [hi]; rfl
  have hcommits : s.di[i].commits lvl act now s.cfg.debounceMs[i] = true ↔
      act ≠ s.di[i].active ∧ s.cfg.debounceMs[i].toNat < elapsed := by
    rw [DigitalChannel.commits_iff, elapsed_toNat, ← hedge]
  refine ⟨hframe, fun j hj => by rw [hdi, if_neg hj], by rw [hi]; rfl, by rw [hi]; rfl, by rw [hi]; rfl,
    fun hflip => hedge.trans (DigitalChannel.edgeAfter_of_edge hflip),
    fun hsame => hedge.trans (DigitalChannel.edgeAfter_of_same hsame), fun hc => ?_, fun hc => ?_, by rw [hi]; rfl,
    by rw [hstatus, if_pos rfl], fun x hx => by rw [hstatus, if_neg hx]⟩
  · rw [hi, DigitalChannel.sample_committed (hcommits.mpr hc)]
    exact ⟨rfl, rfl, rfl⟩
  · rw [hi, DigitalChannel.sample_kept (mt hcommits.mp hc)]
    exact ⟨rfl, rfl, rfl⟩

end Sys2Proof.Machine

/-! The whole cycle (spec rules R260, R261, R285 to R288, R300 to R303, R320 to R324, R332), from what `runCycle_spec` says
of the state after it. The zone status and the error code are folds over the channels, read bit by bit. -/

namespace Sys2Proof.Machine

open Sys2Proof

/-! ## The step of a cycle event -/

/-- The step of a cycle event answers the state after the cycle, named. -/
theorem exists_step_cycle {s : State} {a : Vector Raw12 4} {d : Vector Bool 4} {es : List Event}
    (hi : s.inputs = .cycle a d :: es) : ∃ t, step s = .next t ∧ runCycle a d (s.setInputs es) = t :=
  ⟨_, step_cycle hi, rfl⟩

/-! ## The aggregate -/

theorem State.critical_mem_statuses_iff (s : State) : Status.critical ∈ s.statuses ↔ s.someCritical := by
  have hactive : ∀ b : Bool, digitalStatus b = .critical ↔ b = true := by decide
  simp only [State.mem_statuses, State.someCritical, hactive]

/-- A digital channel is CRITICAL or OK, so any other status is an analog channel's (rule R279). -/
theorem State.mem_statuses_iff_someAnalog (s : State) {st : Status} (h : ∀ b, digitalStatus b ≠ st) :
    st ∈ s.statuses ↔ s.someAnalog st := by
  simp only [State.mem_statuses, State.someAnalog, h, and_false, exists_false, or_false]

/-- Settles O39: the chain over the statuses of the enabled channels, and the counters of a cycle, which never
aggregates to EMERGENCY. -/
theorem cycleAggregatesAndCounts : Obligations.CycleAggregatesAndCounts := by
  refine ⟨fun s => ?_, fun s a d es hi => ?_⟩
  · have hchain := precedence_cases s.statuses
    rwa [s.critical_mem_statuses_iff, s.mem_statuses_iff_someAnalog (st := .warning) (by decide),
      s.mem_statuses_iff_someAnalog (st := .error) (by decide)] at hchain
  · obtain ⟨t, hstep, ht⟩ := exists_step_cycle hi
    obtain ⟨-, hframe, -, -, ⟨hstatus, hagg⟩, hwarn, hcrit, hemerg, -⟩ := runCycle_spec rfl ht
    have hne : t.sysStatus ≠ .emergency := hstatus ▸ precedence_ne_emergency _
    refine ⟨t, hstep, hstatus.trans hagg.symm, hwarn, hcrit, ?_, by rw [hframe]; rfl⟩
    rw [if_neg hne]
    exact hemerg

/-! ## The channels -/

/-- Past the system's registers a cycle leaves what the sampling half wrote (rule R320). -/
theorem runCycle_hrGet_of_gt {a : Vector Raw12 4} {d : Vector Bool 4} {s : State} {x : Nat} (hx : 5 < x) :
    (runCycle a d s).hrGet x = (sampleChannels a d s).hrGet x := by
  rw [runCycle_hrGet rfl, if_neg (by omega), if_neg (by omega), if_neg (by omega), if_neg (by omega),
    if_neg (by omega)]

/-- Settles O40: a cycle and the channel's own step from the start of the cycle give the same channel and register. -/
theorem cycleStepsEveryChannelFromItsStart : Obligations.CycleStepsEveryChannelFromItsStart := by
  intro s a d es hi
  obtain ⟨t, hstep, ht⟩ := exists_step_cycle hi
  obtain ⟨-, -, hai, hdi, -⟩ := runCycle_spec rfl ht
  obtain ⟨-, -, -, -, hvalue, hstatus, -⟩ := sampleChannels_spec (a := a) (d := d) (s := s.setInputs es) rfl
  have hreg : ∀ x, 5 < x → t.hrGet x = (sampleChannels a d (s.setInputs es)).hrGet x := fun x hx =>
    ht ▸ runCycle_hrGet_of_gt hx
  refine ⟨t, hstep, fun i => ⟨?_, ?_⟩, fun i => ⟨?_, ?_⟩⟩
  · obtain ⟨-, -, hown, -⟩ := analogStep_spec i a[i] s
    rw [hai, hown, if_pos rfl]
    rfl
  · obtain ⟨-, -, -, hown⟩ := analogStep_spec i a[i] s
    have hx : aiValueAddr i = 0x10 + i.val := rfl
    rw [← hx, hreg _ (by omega), hvalue, hown]
    simp only [true_and]
    rfl
  · obtain ⟨-, -, hown, -⟩ := digitalStep_spec i d[i] s.uptimeMs s
    rw [hdi, hown, if_pos rfl]
    rfl
  · obtain ⟨-, -, -, hown⟩ := digitalStep_spec i d[i] s.uptimeMs s
    have hx : diStatusAddr i = 0x22 + i.val := rfl
    rw [← hx, hreg _ (by omega), hstatus, hown]
    simp only [true_and]
    rfl

/-- Settles O43: the step of a disabled channel changes nothing, and a cycle leaves what the channel's own step leaves. -/
theorem cycleFrameHolds : Obligations.CycleFrameHolds := by
  intro s a d es hi
  obtain ⟨t, hstep, hanalog, hdigital⟩ := cycleStepsEveryChannelFromItsStart s a d es hi
  obtain ⟨⟨-, hregs⟩, hframe, -⟩ := runCycle_spec rfl (step_cycle_next hi hstep)
  have hcheck : t.lastCheck = s.uptimeMs := by rw [hframe]; rfl
  refine ⟨t, hstep, hregs, fun i h => ?_, fun i h => ?_, by rw [hcheck]; exact hframe⟩
  · rw [← analogStep_disabled a[i] h]
    exact hanalog i
  · rw [← digitalStep_disabled d[i] s.uptimeMs h]
    exact hdigital i

/-! ## The outputs -/

theorem drivenTo_ok (b keep : Bool) : drivenTo .ok b keep = (b && keep) := rfl

theorem drivenTo_other {agg : Status} (b keep : Bool) (h1 : agg ≠ .critical) (h2 : agg ≠ .ok) :
    drivenTo agg b keep = b := by
  rw [drivenTo, if_neg h1, if_neg h2]

/-- Settles O41, by the aggregate: each of the three is driven to the value that `drivenTo` gives. -/
theorem cycleDrivesOutputs : Obligations.CycleDrivesOutputs := by
  intro s a d es hi
  obtain ⟨t, hstep, ht⟩ := exists_step_cycle hi
  obtain ⟨-, -, -, -, -, -, -, -, hrelay, hind, hlatch, -⟩ := runCycle_spec rfl ht
  have hauto : (s.setInputs es).autoReset = s.autoReset := rfl
  simp only [State.setInputs_relayOut, State.setInputs_indOut, State.setInputs_resetRequired, hauto] at hrelay hind hlatch
  refine ⟨t, hstep, fun hc => ?_, fun hok h => ?_, fun hok h hl => ?_, fun hok hl => ?_, fun h1 h2 => ?_⟩
  · rw [hrelay, hind, hlatch, hc]
    exact ⟨rfl, rfl, rfl⟩
  · rw [hrelay, hind, hlatch, hok]
    simp [drivenTo_ok, s.autoReset_eq_true_iff.mpr h]
  · rw [hrelay, hind, hlatch, hok]
    have hoff : s.autoReset = false := Bool.eq_false_iff.mpr fun hon => s.autoReset_eq_true_iff.mp hon h
    simp [drivenTo_ok, hoff, hl]
  · rw [hrelay, hind, hlatch, hok]
    simp [drivenTo_ok, hl]
  · rw [hrelay, hind, hlatch]
    exact ⟨drivenTo_other _ _ h1 h2, drivenTo_other _ _ h1 h2, drivenTo_other _ _ h1 h2⟩

/-! ## The published words -/

/-- A bit of an OR over channels is a bit of some channel's flags. -/
theorem getLsbD_foldl_or (f : Fin 4 → Byte) (b : Nat) :
    ∀ (l : List (Fin 4)) (z : Word), (l.foldl (fun z i => z ||| (f i).setWidth 16) z).getLsbD b = true ↔
      z.getLsbD b = true ∨ ∃ i ∈ l, (f i).getLsbD b = true
  | [], z => by simp
  | i :: l, z => by
    have hwide : ((f i).setWidth 16).getLsbD b = (f i).getLsbD b := by
      rw [BitVec.getLsbD_setWidth, Bool.and_eq_right_iff_imp]
      exact fun hb => decide_eq_true ((BitVec.lt_of_getLsbD hb).trans (by decide))
    rw [List.foldl_cons, getLsbD_foldl_or f b l, BitVec.getLsbD_or, hwide]
    simp [or_assoc]

/-- Adding a channel's power of two to a word without its bit sets the bit and carries nothing. -/
theorem getLsbD_add_pow {e : Word} {i : Fin 4} (h : e.getLsbD i.val = false) (b : Nat) :
    (e + BitVec.ofNat 16 (2 ^ i.val)).getLsbD b = (e.getLsbD b || decide (i.val = b)) := by
  have hpow : ∀ j : Fin 4, BitVec.ofNat 16 (2 ^ j.val) = BitVec.twoPow 16 j.val := by decide
  have hdisjoint : e &&& BitVec.twoPow 16 i.val = 0#16 := by rw [BitVec.and_twoPow, h]; rfl
  have hlt : i.val < 16 := by omega
  rw [hpow, BitVec.add_eq_or_of_and_eq_zero _ _ hdisjoint, BitVec.getLsbD_or, BitVec.getLsbD_twoPow,
    decide_eq_true hlt, Bool.true_and]

/-- A bit of the sum of different channels' powers of two is that of a channel in the sum. -/
theorem getLsbD_foldl_add_pow (b : Nat) :
    ∀ (l : List (Fin 4)) (e : Word), l.Nodup → (∀ i ∈ l, e.getLsbD i.val = false) →
      ((l.foldl (fun e i => e + BitVec.ofNat 16 (2 ^ i.val)) e).getLsbD b = true ↔
        e.getLsbD b = true ∨ ∃ i ∈ l, i.val = b)
  | [], e, _, _ => by simp
  | i :: l, e, hn, he => by
    obtain ⟨hil, hn⟩ := List.nodup_cons.mp hn
    have hbit := getLsbD_add_pow (he i (.head l))
    have hclear : ∀ j ∈ l, (e + BitVec.ofNat 16 (2 ^ i.val)).getLsbD j.val = false := fun j hj => by
      have hne : i.val ≠ j.val := fun hij => hil (Fin.ext hij ▸ hj)
      rw [hbit, he j (.tail i hj), Bool.false_or, decide_eq_false hne]
    rw [List.foldl_cons, getLsbD_foldl_add_pow b l _ hn hclear, hbit]
    simp [or_assoc]

theorem State.zoneStatus_bit (s : State) (b : Nat) :
    s.zoneStatus.getLsbD b = true ↔ ∃ i : Fin 4, s.aiEnabled i = true ∧ s.ai[i].flags.getLsbD b = true := by
  rw [State.zoneStatus, getLsbD_foldl_or (fun i => s.ai[i].flags)]
  simp [mem_channels]

theorem State.errorMask_bit (s : State) (b : Nat) :
    s.errorMask.getLsbD b = true ↔ ∃ i : Fin 4, i.val = b ∧ s.aiEnabled i = true ∧ s.ai[i].status = .error := by
  rw [State.errorMask, getLsbD_foldl_add_pow b _ _ (channels_nodup.filter _) (by simp)]
  have hzero : (0 : Word).getLsbD b = false := BitVec.getLsbD_zero
  simp only [hzero, Bool.false_eq_true, false_or, List.mem_filter, mem_channels, true_and, State.inError,
    Bool.and_eq_true, beq_iff_eq, and_comm]

theorem State.proxAlert_eq_one_iff (s : State) :
    s.proxAlert = 1 ↔ ∃ i : Fin 4, s.aiEnabled i = true ∧ s.ai[i].status ≠ .error ∧
      s.ai[i].dist.num ≤ (s.hrGet 0x48).toNat * (s.ai[i].dist.denPred + 1) := by
  have halert : s.proxAlert = 1 ↔ channels.any s.proximate = true := by
    rw [State.proxAlert]
    split <;> simp [*]
  simp only [halert, List.any_eq_true, mem_channels, true_and, State.proximate, Bool.and_eq_true, bne_iff_ne,
    Dist.le_iff, and_assoc]

/-- Settles O42: each published word is the one that the sampled channels give, and the cycle leaves them as sampled. -/
theorem cyclePublishesResults : Obligations.CyclePublishesResults := by
  intro s a d es hi
  obtain ⟨t, hstep, ht⟩ := exists_step_cycle hi
  obtain ⟨u, hu⟩ : ∃ u, sampleChannels a d (s.setInputs es) = u := ⟨_, rfl⟩
  obtain ⟨-, -, hai, -, ⟨hstatus, -⟩, -, -, -, -, -, -, hregs⟩ := runCycle_spec hu ht
  obtain ⟨hconfig, -, huai, -⟩ := sampleChannels_spec hu
  have hchannels : ∀ i : Fin 4, u.ai[i] = t.ai[i] := fun i => (huai i).trans (hai i).symm
  have henabled : ∀ i : Fin 4, u.aiEnabled i = true ↔ s.hrGet (0x1A + i.val) ≠ 0 := fun i => by
    rw [hconfig.aiEnabled]
    exact s.aiEnabled_eq_true_iff i
  have hthresh : u.hrGet 0x48 = s.hrGet 0x48 := hconfig.2 0x48 (by decide)
  refine ⟨t, hstep, ?_, fun b => ?_, ?_, ?_, hregs 0x4, fun b => ?_⟩
  · rw [hregs, ← hstatus]
    cases t.sysStatus <;> rfl
  · have h : t.hrGet 0x2 = u.zoneStatus := hregs 0x2
    simp only [h, State.zoneStatus_bit, hchannels, henabled]
  · have h : t.hrGet 0x3 = u.proxAlert := hregs 0x3
    rw [h, State.proxAlert]
    split <;> simp
  · have h : t.hrGet 0x3 = u.proxAlert := hregs 0x3
    simp only [h, State.proxAlert_eq_one_iff, hchannels, henabled, hthresh]
  · have h : t.hrGet 0x5 = u.errorMask := hregs 0x5
    simp only [h, State.errorMask_bit, hchannels, henabled]

end Sys2Proof.Machine

/-! Exceptions, the time base, and that no event stops SMCORE (spec rules R340 to R359). The table of causes decides what
a request answers: with a cause it raises the exception and does nothing else, without one its response begins with its
own code, whose high bit is clear. Two contents that are both sent by one step are the same, which leaves the two codes of
the table as the only ones ever sent. -/

namespace Sys2Proof.Machine

open Sys2Proof

/-! ## The table of causes -/

/-- The causes of the table raise the codes 0x01 and 0x02 (rule R342). -/
theorem exceptionOf_code {p : Params} {i : Instr} {code : Byte} (h : exceptionOf p i = some code) :
    code = 0x01 ∨ code = 0x02 := by
  cases i with
  | rhr | rir | wsr | wmr =>
    obtain ⟨-, hcode⟩ := Option.ite_none_right_eq_some.mp h
    exact .inr (Option.some.inj hcode).symm
  | illegal => exact .inl (Option.some.inj h).symm

/-- A request without a cause has one of the supported codes, all of them below 0x80 (rules R133, R250). -/
theorem code_highBit_of_exceptionOf_none {p : Params} {i : Instr} (h : exceptionOf p i = none) :
    i.code.getLsbD 7 = false := by
  cases i with
  | rhr | rir | wsr | wmr => simp [Instr.code]
  | illegal => cases h

/-- A request with a cause raises its exception and does nothing else (rules R342, R343, R349). -/
theorem exec_of_exceptionOf_some {i : Instr} {s : State} {code : Byte} (h : exceptionOf s.cfg i = some code) :
    exec i s = .next (raiseException i.code code s) := by
  cases i with
  | rhr =>
    obtain ⟨hcause, ⟨⟩⟩ := Option.ite_none_right_eq_some.mp h
    exact readRegisters_refused (sp := .holding) hcause
  | rir =>
    obtain ⟨hcause, ⟨⟩⟩ := Option.ite_none_right_eq_some.mp h
    exact readRegisters_refused (sp := .input) hcause
  | wsr =>
    obtain ⟨hcause, ⟨⟩⟩ := Option.ite_none_right_eq_some.mp h
    exact if_pos hcause
  | wmr =>
    obtain ⟨hcause, ⟨⟩⟩ := Option.ite_none_right_eq_some.mp h
    exact execWmr_refused hcause
  | illegal =>
    cases h
    exact exec_illegal ..

/-- A read without a cause answers with the request's code (rules R124, R200, R201). -/
theorem readRegisters_responds {sp : Space} {addr qty : Word} {s : State} (fc : Byte)
    (h : ¬ (s.spaceLen sp < addr.toNat + qty.toNat ∨ s.cfg.maxReadQty < qty.toNat)) :
    ∃ t body, readRegisters sp fc addr qty s = .next t ∧ Responds (s.cfg.slaveAddr :: fc :: body) s t := by
  obtain ⟨hr, hq⟩ := not_or.mp h
  exact ⟨_, _, readRegisters_inRange (Nat.le_of_not_lt hr) (Nat.le_of_not_lt hq), rfl, rfl⟩

/-- A request without a cause answers with its own code (rules R124, R125). -/
theorem exec_of_exceptionOf_none {i : Instr} {s : State} (h : exceptionOf s.cfg i = none) :
    ∃ t body, exec i s = .next t ∧ Responds (s.cfg.slaveAddr :: i.code :: body) s t := by
  have hne {x : Byte} : some x ≠ none := Option.some_ne_none x
  cases i with
  | rhr => exact readRegisters_responds (sp := .holding) 0x03 (hne.ite_eq_right_iff.mp h)
  | rir => exact readRegisters_responds (sp := .input) 0x04 (hne.ite_eq_right_iff.mp h)
  | wsr addr value =>
    have hroom : addr.toNat < s.cfg.holdingRegCount := Nat.lt_of_not_le (hne.ite_eq_right_iff.mp h)
    obtain ⟨u, hu, hframe, -⟩ := writePathSideEffect s addr.toNat value hroom
    exact ⟨_, _, exec_wsr_of_hrWrite hroom hu, (transmit_afterWrites _ hframe).2⟩
  | wmr addr qty bc data =>
    obtain ⟨hr, hb⟩ := not_or.mp (hne.ite_eq_right_iff.mp h)
    obtain ⟨u, he, hframe, -⟩ := exec_wmr_accepted data (Nat.le_of_not_lt hr) (not_not.mp hb)
    exact ⟨_, _, he, (transmit_afterWrites _ hframe).2⟩
  | illegal => cases h

/-- Settles O17, by whether the table of causes has a code for the request. -/
theorem exceptionResponses : Obligations.ExceptionResponses := by
  refine ⟨fun i s => ⟨fun code h => exec_of_exceptionOf_some h, fun h => ?_⟩, by decide +kernel⟩
  obtain ⟨t, body, he, hresp⟩ := exec_of_exceptionOf_none h
  exact ⟨t, body, he, hresp, code_highBit_of_exceptionOf_none h⟩

/-! ## The codes sent -/

/-- A frame determines its content (rule R127). -/
theorem withCrc_injective : Function.Injective withCrc := by
  intro c c' h
  have hlen : c.length = c'.length := by simpa using congrArg List.length h
  exact List.append_inj_left h hlen

/-- One response has one content. -/
theorem Responds.content_unique {c c' : List Byte} {s t : State} (h : Responds c s t) (h' : Responds c' s t) :
    c = c' := by
  have hlog := List.append_cancel_left (h.1.symm.trans h'.1)
  exact withCrc_injective (TxRecord.mk.inj (List.cons.inj hlog).1).1

/-- Settles O18: a response with the high bit of its code set is not a normal one, and an exception's code stands in the
table of causes. -/
theorem onlyTwoExceptionCodes : Obligations.OnlyTwoExceptionCodes := by
  intro i s t slave fc code h hresp hhigh
  cases hc : exceptionOf s.cfg i with
  | some cause =>
    obtain rfl := Host.Outcome.next.inj ((exec_of_exceptionOf_some hc).symm.trans h)
    cases hresp.content_unique (c' := [s.cfg.slaveAddr, i.code ||| 0x80, cause]) ⟨rfl, rfl⟩
    exact exceptionOf_code hc
  | none =>
    obtain ⟨t', body, he, hnormal⟩ := exec_of_exceptionOf_none hc
    obtain rfl : t' = t := Host.Outcome.next.inj (he.symm.trans h)
    cases hresp.content_unique hnormal
    cases (code_highBit_of_exceptionOf_none hc).symm.trans hhigh

/-! ## Every event completes -/

/-- A complete frame is processed to its end: its request completes, or it is dropped (rules R171 to R173, R340). -/
theorem processFrame_completes (f : List Byte) (s : State) : ∃ t, processFrame f s = .next t := by
  cases hd : decode s.cfg.slaveAddr f with
  | ok i =>
    rw [processFrame_accepted hd]
    exact everyRequestCompletes i s
  | error e => exact ⟨s, processFrame_rejected (by simp [hd])⟩

/-- A byte's step completes, whatever becomes of the byte (rules R161, R162). -/
theorem exists_step_byte {s : State} {b : Byte} {es : List Event} (hi : s.inputs = .rxByte b :: es) :
    ∃ t, step s = .next t := by
  by_cases hroom : s.rxBuf.length < s.cfg.frameBufSize
  · by_cases hexp : expectedLen (s.rxBuf ++ [b]) = some (s.rxBuf.length + 1)
    · rw [step_byte_completes hi hroom hexp]
      exact processFrame_completes _ _
    · exact ⟨_, step_byte_kept hi hroom hexp⟩
  · exact ⟨_, step_byte_overflows hi (Nat.le_of_not_lt hroom)⟩

/-- Settles O20, by the next event: only line silence is ever refused, and only without its timer. -/
theorem noEventStopsTheMachine : Obligations.NoEventStopsTheMachine := by
  intro s
  cases hi : s.inputs with
  | nil => exact .inl ⟨s, by rw [step, stepEvent, hi]⟩
  | cons e es =>
    cases e with
    | rxByte b => exact .inl (exists_step_byte hi)
    | rxSilence =>
      obtain ⟨hwith, hwithout⟩ := lineSilence s es hi
      cases hs : s.cfg.silenceReset with
      | true => exact .inl ⟨_, (hwith hs).1⟩
      | false => exact .inr ⟨rfl, ⟨es, rfl⟩, hwithout hs⟩
    | rxError | cycle | msTick | reset => exact .inl ⟨_, step_of_event hi⟩

/-! ## The time base -/

/-- A byte leaves the time alone, whatever becomes of it (rules R177, R355). -/
theorem onRxByte_uptimeMs {b : Byte} {s t : State} (h : onRxByte b s = .next t) : t.uptimeMs = s.uptimeMs := by
  obtain ⟨-, -, rfl⟩ | ⟨-, rfl⟩ | ⟨-, -, ⟨i, -, he⟩ | ⟨e, -, rfl⟩⟩ := onRxByte_cases h
  · rfl
  · rfl
  · have hframe : RequestFrame (s.setRxBuf []) t := (exec_keeps_monitor he).1
    rw [hframe]
    rfl
  · rfl

/-- Settles O45, by the event of the step: a byte's request and a cycle have `uptime_ms` in their frames. -/
theorem onlyTickAndResetChangeUptime : Obligations.OnlyTickAndResetChangeUptime := by
  intro s t h hne
  obtain ⟨-, rfl⟩ | ⟨b, es, -, hb⟩ | ⟨es, -, rfl⟩ | ⟨es, -, -, rfl⟩ | ⟨a, d, es, -, ht⟩ | ⟨es, hi, -⟩ |
    ⟨es, hi, -⟩ := step_cases h
  · exact absurd rfl hne
  · exact absurd (onRxByte_uptimeMs hb) hne
  · exact absurd rfl hne
  · exact absurd rfl hne
  · obtain ⟨-, hframe, -⟩ := runCycle_spec rfl ht.symm
    exact absurd (congrArg State.uptimeMs hframe) hne
  · exact .inl ⟨es, hi⟩
  · exact .inr ⟨es, hi⟩

/-- Settles O44: the sum of 32-bit words is modulo 2^32. -/
theorem tickAdvancesUptime : Obligations.TickAdvancesUptime :=
  fun s _ hi => ⟨_, step_of_event hi, rfl, BitVec.toNat_add s.uptimeMs 1⟩

end Sys2Proof.Machine

/-! The state after reset as a master sees it, and the first cycle after it (spec rules R380, R383). No register is
listed after reset, so each reads its reset value, by which every channel is disabled; and a cycle without an enabled
channel aggregates nothing, which is OK, and publishes nothing but the relay. -/

namespace Sys2Proof.Machine

open Sys2Proof

/-! ## The registers -/

theorem State.resetOf_hrGet (p : Params) (a : Nat) : (State.resetOf p).hrGet a = holdingReset p a := rfl

/-- Below the device registers, one without a reset value of its own reads 0 (rule R35). -/
theorem State.resetOf_hrGet_zero (p : Params) {a : Nat}
    (h : a ∉ [0x14, 0x15, 0x44, 0x45, 0x46, 0x47, 0x48, 0x49, 0x4B] ∧ a < 0x100) : (State.resetOf p).hrGet a = 0 := by
  obtain ⟨hlisted, hlow⟩ := h
  rw [State.resetOf_hrGet, holdingReset_other p hlisted (.inl hlow)]

/-- The ten device registers read DEVICE_DEFAULTS (rules R35, R55). -/
theorem State.resetOf_hrGet_device (p : Params) (k : Fin 10) :
    (State.resetOf p).hrGet (0x100 + k.val) = p.deviceDefaults[k] := by
  rw [State.resetOf_hrGet, holdingReset_device, List.getD_eq_getElem _ _ (by rw [Vector.length_toList]; exact k.isLt)]
  exact Vector.getElem_toList _

/-! ## A cycle without an enabled channel -/

/-- No channel is enabled (rules R44, R46). -/
def State.allDisabled (s : State) : Prop := ∀ i : Fin 4, s.aiEnabled i = false ∧ s.diEnabled i = false

theorem State.resetOf_allDisabled (p : Params) : (State.resetOf p).allDisabled := by
  intro i
  have haddr : ∀ j : Fin 4, ∀ x ∈ [aiEnableAddr j, diEnableAddr j],
      x ∉ [0x14, 0x15, 0x44, 0x45, 0x46, 0x47, 0x48, 0x49, 0x4B] ∧ x < 0x100 := by decide
  have hzero : ∀ x ∈ [aiEnableAddr i, diEnableAddr i], (State.resetOf p).hrGet x = 0 := fun x hx =>
    State.resetOf_hrGet_zero p (haddr i x hx)
  exact ⟨by rw [State.aiEnabled, hzero _ (by simp)]; rfl, by rw [State.diEnabled, hzero _ (by simp)]; rfl⟩

theorem SameConfig.allDisabled {s t : State} (h : SameConfig s t) (hs : s.allDisabled) : t.allDisabled := by
  intro i
  rw [h.aiEnabled, h.diEnabled]
  exact hs i

theorem State.allDisabled.filter_aiEnabled {s : State} (h : s.allDisabled) : channels.filter s.aiEnabled = [] := by
  simp [List.filter_eq_nil_iff, (h _).1]

theorem State.allDisabled.filter_diEnabled {s : State} (h : s.allDisabled) : channels.filter s.diEnabled = [] := by
  simp [List.filter_eq_nil_iff, (h _).2]

/-- No status enters the chain, whose last entry is OK (rule R285). -/
theorem State.allDisabled.aggregate {s : State} (h : s.allDisabled) : s.aggregate = .ok := by
  rw [State.aggregate, State.statuses, h.filter_aiEnabled, h.filter_diEnabled]
  rfl

theorem State.allDisabled.zoneStatus {s : State} (h : s.allDisabled) : s.zoneStatus = 0 := by
  rw [State.zoneStatus, h.filter_aiEnabled]
  rfl

theorem State.allDisabled.proxAlert {s : State} (h : s.allDisabled) : s.proxAlert = 0 := by
  simp [State.proxAlert, State.proximate, (h _).1]

theorem State.allDisabled.errorMask {s : State} (h : s.allDisabled) : s.errorMask = 0 := by
  have hnone : channels.filter s.inError = [] := by simp [State.inError, (h _).1]
  rw [State.errorMask, hnone]
  rfl

/-- With every channel disabled and the relay off, a cycle is OK and publishes 0 (rules R285, R303, R320 to R324). -/
theorem runCycle_of_allDisabled {s : State} (hs : s.allDisabled) (hoff : s.relayOut = false) (a : Vector Raw12 4)
    (d : Vector Bool 4) :
    (runCycle a d s).sysStatus = .ok ∧ ∀ x ∈ [0x0, 0x2, 0x3, 0x4, 0x5], (runCycle a d s).hrGet x = 0 := by
  obtain ⟨u, hu⟩ : ∃ u, sampleChannels a d s = u := ⟨_, rfl⟩
  obtain ⟨v, hv⟩ : ∃ v, runCycle a d s = v := ⟨_, rfl⟩
  obtain ⟨hconfig, -⟩ := sampleChannels_spec hu
  have hdis : u.allDisabled := hconfig.allDisabled hs
  obtain ⟨-, -, -, -, ⟨hstatus, -⟩, -, -, -, hrelay, -, -, hregs⟩ := runCycle_spec hu hv
  have hok : v.sysStatus = .ok := hstatus.trans hdis.aggregate
  have hrelayOff : v.relayOut = false := by rw [hrelay, hok, hoff, drivenTo_ok, Bool.false_and]
  rw [hv]
  refine ⟨hok, ?_⟩
  simp only [List.forall_mem_cons, List.not_mem_nil, false_imp_iff, implies_true, and_true]
  refine ⟨?_, ?_, ?_, ?_, ?_⟩
  · exact (hregs 0x0).trans (congrArg Status.code hdis.aggregate)
  · exact (hregs 0x2).trans hdis.zoneStatus
  · exact (hregs 0x3).trans hdis.proxAlert
  · exact (hregs 0x4).trans (by rw [hrelayOff]; rfl)
  · exact (hregs 0x5).trans hdis.errorMask

/-! ## The state after reset -/

/-- Settles O47: every register reads its reset value, and the first cycle finds every channel disabled and the relay
off. -/
theorem resetAsTheMasterSeesIt : Obligations.ResetAsTheMasterSeesIt := by
  intro p
  have hlisted := holdingReset_listed p
  simp only [List.forall_mem_cons] at hlisted
  obtain ⟨h14, h15, h44, h45, h46, h47, h48, h49, h4B, -⟩ := hlisted
  refine ⟨fun x hx => ?_, h14, h15, h44, h45, h46, h47, h48, h49, h4B, State.resetOf_hrGet_device p, rfl, rfl,
    runCycle_of_allDisabled (State.resetOf_allDisabled p) rfl⟩
  have hunlisted : x ∉ [0x14, 0x15, 0x44, 0x45, 0x46, 0x47, 0x48, 0x49, 0x4B] ∧ x < 0x100 := by
    revert x
    decide
  exact State.resetOf_hrGet_zero p hunlisted

/-- Settles O58: the base case of the seven invariants, with no event loaded. -/
theorem resetIsSafe : Obligations.ResetIsSafe :=
  ⟨fun p => safe_resetOf_setInputs p [], safe_resetOf_setInputs Config.vectorParams []⟩

end Sys2Proof.Machine
